-- ==== Sys2Proof/Word.lean ====
section
/-! DEFINITION. The two word types of the machine (spec/00_scope.md R9, R11): `u8` and `u16` of the
spec. Their arithmetic is BitVec's, which wraps exactly as `wrap8` and `wrap16` do. -/

namespace Sys2Proof

/-- `u8` (R11): a register, a memory byte, an opcode, an operand byte. Bit 0 is the least significant. -/
abbrev Byte := BitVec 8

/-- `u16` (R11): an address or the program counter. -/
abbrev Word := BitVec 16

end Sys2Proof
end

