-- ==== Sys2Proof/Config.lean ====
section
/-! DEFINITION. What is fixed for one machine: the constants the source states (spec/00_scope.md R9) and
the record of the parameters it leaves open (R10). A machine carries its record in `State.cfg`, so a
statement about every state is a statement about every choice of the open parameters; no step writes it. -/

namespace Sys2Proof

/-- DOTS_PER_LINE (R9). -/
abbrev dotsPerLine : Nat := 341

/-- LINES_PER_FRAME (R9). -/
abbrev linesPerFrame : Nat := 262

/-- FRAME_DOTS = 341 * 262 (R9, R37): the range of the cycle counter. -/
abbrev frameDots : Nat := 89342

/-- TIMING_RATIO (R9): timing steps for each CPU cycle. -/
abbrev timingRatio : Nat := 3

/-- RESET_PC (R10, R240; decision D8). -/
abbrev resetPC : Word := 0x8000

/-- The program-bank size, the pattern-bank size and the header length of a ROM image (R9). -/
abbrev programBankSize : Nat := 16384
abbrev patternBankSize : Nat := 8192
abbrev headerLength : Nat := 16

/-- The open parameters of R10. `handlers` holds ImplementedOpcodes and BaseCycles together, as the
source's "dispatch table" does (R82, R103): an opcode is implemented iff the list names it, and the number
beside it is its base cycle cost. `pagePenalty` is PagePenaltyOpcodes (R118); the three addresses are
STATUS_ADDR, LATCH_ADDR_A and LATCH_ADDR_B (D15).
DESIGN CHOICE (log entries 1 and 12): the record is a field of State, and the two parameters are one list. -/
structure Config where
  handlers    : List (Byte × Nat)
  pagePenalty : List Byte
  statusAddr  : Word
  latchA      : Word
  latchB      : Word
  deriving DecidableEq, Repr

end Sys2Proof
end

