-- ==== Sys2Proof/Syntax.lean ====
section
/-! DEFINITION. The instructions: one constructor for each of the 105 rows of spec/opcode_table.json, which
is spec/30_encoding.md R88. A constructor's name is the mnemonic and the addressing mode (`Imm` immediate,
`Acc` accumulator, `Zp` zero-page, `Abs` absolute, `AbsX` absolute-indexed (X); a mnemonic with one mode
carries no suffix), and its argument is what the operand bytes hold (R83): the operand byte itself (`v`), the
zero-page address byte (`z`), the assembled little-endian word (`a`, `base`, `target`), or the displacement
byte (`d`). -/

namespace Sys2Proof

inductive Instr where
  -- Loads and stores (spec/41_load_store.md)
  /-- 0xA9 LDA imm (R130). -/
  | ldaImm (v : Byte)
  /-- 0xA5 LDA zp (R130). -/
  | ldaZp (z : Byte)
  /-- 0xAD LDA abs (R130). -/
  | ldaAbs (a : Word)
  /-- 0xBD LDA absx (R130). -/
  | ldaAbsX (base : Word)
  /-- 0xA2 LDX imm (R131). -/
  | ldxImm (v : Byte)
  /-- 0xA6 LDX zp (R131). -/
  | ldxZp (z : Byte)
  /-- 0xAE LDX abs (R131). -/
  | ldxAbs (a : Word)
  /-- 0xA0 LDY imm (R132). -/
  | ldyImm (v : Byte)
  /-- 0xA4 LDY zp (R132). -/
  | ldyZp (z : Byte)
  /-- 0xAC LDY abs (R132). -/
  | ldyAbs (a : Word)
  /-- 0xBC LDY absx (R132). -/
  | ldyAbsX (base : Word)
  /-- 0x85 STA zp (R133). -/
  | staZp (z : Byte)
  /-- 0x8D STA abs (R133). -/
  | staAbs (a : Word)
  /-- 0x9D STA absx (R133). -/
  | staAbsX (base : Word)
  /-- 0x86 STX zp (R134). -/
  | stxZp (z : Byte)
  /-- 0x8E STX abs (R134). -/
  | stxAbs (a : Word)
  /-- 0x84 STY zp (R135). -/
  | styZp (z : Byte)
  /-- 0x8C STY abs (R135). -/
  | styAbs (a : Word)
  -- Arithmetic, compare and bit test (spec/42_arithmetic_compare.md)
  /-- 0x69 ADC imm (R140). -/
  | adcImm (v : Byte)
  /-- 0x65 ADC zp (R140). -/
  | adcZp (z : Byte)
  /-- 0x6D ADC abs (R140). -/
  | adcAbs (a : Word)
  /-- 0x7D ADC absx (R140). -/
  | adcAbsX (base : Word)
  /-- 0xE9 SBC imm (R141). -/
  | sbcImm (v : Byte)
  /-- 0xE5 SBC zp (R141). -/
  | sbcZp (z : Byte)
  /-- 0xED SBC abs (R141). -/
  | sbcAbs (a : Word)
  /-- 0xFD SBC absx (R141). -/
  | sbcAbsX (base : Word)
  /-- 0xC9 CMP imm (R142). -/
  | cmpImm (v : Byte)
  /-- 0xC5 CMP zp (R142). -/
  | cmpZp (z : Byte)
  /-- 0xCD CMP abs (R142). -/
  | cmpAbs (a : Word)
  /-- 0xDD CMP absx (R142). -/
  | cmpAbsX (base : Word)
  /-- 0xE0 CPX imm (R143). -/
  | cpxImm (v : Byte)
  /-- 0xE4 CPX zp (R143). -/
  | cpxZp (z : Byte)
  /-- 0xEC CPX abs (R143). -/
  | cpxAbs (a : Word)
  /-- 0xC0 CPY imm (R144). -/
  | cpyImm (v : Byte)
  /-- 0xC4 CPY zp (R144). -/
  | cpyZp (z : Byte)
  /-- 0xCC CPY abs (R144). -/
  | cpyAbs (a : Word)
  /-- 0x24 BIT zp (R145). -/
  | bitZp (z : Byte)
  /-- 0x2C BIT abs (R145). -/
  | bitAbs (a : Word)
  -- Logic, shifts, rotates, increments, decrements (spec/43_logic_shift_incdec.md)
  /-- 0x29 AND imm (R150). -/
  | andImm (v : Byte)
  /-- 0x25 AND zp (R150). -/
  | andZp (z : Byte)
  /-- 0x2D AND abs (R150). -/
  | andAbs (a : Word)
  /-- 0x3D AND absx (R150). -/
  | andAbsX (base : Word)
  /-- 0x09 ORA imm (R151). -/
  | oraImm (v : Byte)
  /-- 0x05 ORA zp (R151). -/
  | oraZp (z : Byte)
  /-- 0x0D ORA abs (R151). -/
  | oraAbs (a : Word)
  /-- 0x1D ORA absx (R151). -/
  | oraAbsX (base : Word)
  /-- 0x49 EOR imm (R152). -/
  | eorImm (v : Byte)
  /-- 0x45 EOR zp (R152). -/
  | eorZp (z : Byte)
  /-- 0x4D EOR abs (R152). -/
  | eorAbs (a : Word)
  /-- 0x5D EOR absx (R152). -/
  | eorAbsX (base : Word)
  /-- 0x0A ASL acc (R153). -/
  | aslAcc
  /-- 0x06 ASL zp (R153). -/
  | aslZp (z : Byte)
  /-- 0x0E ASL abs (R153). -/
  | aslAbs (a : Word)
  /-- 0x1E ASL absx (R153). -/
  | aslAbsX (base : Word)
  /-- 0x4A LSR acc (R154). -/
  | lsrAcc
  /-- 0x46 LSR zp (R154). -/
  | lsrZp (z : Byte)
  /-- 0x4E LSR abs (R154). -/
  | lsrAbs (a : Word)
  /-- 0x5E LSR absx (R154). -/
  | lsrAbsX (base : Word)
  /-- 0x2A ROL acc (R155). -/
  | rolAcc
  /-- 0x26 ROL zp (R155). -/
  | rolZp (z : Byte)
  /-- 0x2E ROL abs (R155). -/
  | rolAbs (a : Word)
  /-- 0x3E ROL absx (R155). -/
  | rolAbsX (base : Word)
  /-- 0x6A ROR acc (R156). -/
  | rorAcc
  /-- 0x66 ROR zp (R156). -/
  | rorZp (z : Byte)
  /-- 0x6E ROR abs (R156). -/
  | rorAbs (a : Word)
  /-- 0x7E ROR absx (R156). -/
  | rorAbsX (base : Word)
  /-- 0xE6 INC zp (R157). -/
  | incZp (z : Byte)
  /-- 0xEE INC abs (R157). -/
  | incAbs (a : Word)
  /-- 0xFE INC absx (R157). -/
  | incAbsX (base : Word)
  /-- 0xC6 DEC zp (R158). -/
  | decZp (z : Byte)
  /-- 0xCE DEC abs (R158). -/
  | decAbs (a : Word)
  /-- 0xDE DEC absx (R158). -/
  | decAbsX (base : Word)
  /-- 0xE8 INX imp (R159). -/
  | inx
  /-- 0xC8 INY imp (R160). -/
  | iny
  /-- 0xCA DEX imp (R161). -/
  | dex
  /-- 0x88 DEY imp (R162). -/
  | dey
  -- Transfers and stack (spec/44_transfer_stack.md)
  /-- 0xAA TAX imp (R170). -/
  | tax
  /-- 0x8A TXA imp (R171). -/
  | txa
  /-- 0xA8 TAY imp (R172). -/
  | tay
  /-- 0x98 TYA imp (R173). -/
  | tya
  /-- 0xBA TSX imp (R174). -/
  | tsx
  /-- 0x9A TXS imp (R175). -/
  | txs
  /-- 0x48 PHA imp (R176). -/
  | pha
  /-- 0x68 PLA imp (R177). -/
  | pla
  /-- 0x08 PHP imp (R178). -/
  | php
  /-- 0x28 PLP imp (R179). -/
  | plp
  -- Branches, jumps, subroutines (spec/45_control_flow.md)
  /-- 0x10 BPL rel (R183). -/
  | bpl (d : Byte)
  /-- 0x30 BMI rel (R184). -/
  | bmi (d : Byte)
  /-- 0x50 BVC rel (R185). -/
  | bvc (d : Byte)
  /-- 0x70 BVS rel (R186). -/
  | bvs (d : Byte)
  /-- 0x90 BCC rel (R187). -/
  | bcc (d : Byte)
  /-- 0xB0 BCS rel (R188). -/
  | bcs (d : Byte)
  /-- 0xD0 BNE rel (R189). -/
  | bne (d : Byte)
  /-- 0xF0 BEQ rel (R190). -/
  | beq (d : Byte)
  /-- 0x4C JMP abs (R191). -/
  | jmp (target : Word)
  /-- 0x20 JSR abs (R192). -/
  | jsr (target : Word)
  /-- 0x60 RTS imp (R193). -/
  | rts
  -- Flag instructions and NOP (spec/46_flags_misc.md)
  /-- 0x18 CLC imp (R196). -/
  | clc
  /-- 0x38 SEC imp (R197). -/
  | sec
  /-- 0x58 CLI imp (R198). -/
  | cli
  /-- 0x78 SEI imp (R199). -/
  | sei
  /-- 0xB8 CLV imp (R200). -/
  | clv
  /-- 0xD8 CLD imp (R201). -/
  | cld
  /-- 0xF8 SED imp (R202). -/
  | sed
  /-- 0xEA NOP imp (R203). -/
  | nop
  deriving DecidableEq, Repr

end Sys2Proof
end

