-- ==== Sys2Proof/Decode.lean ====
section
/-! DEFINITION. The opcode table of spec/30_encoding.md R88, the decoder and, after it, the encoder.
The decoder is total on any list of bytes and rejects by name. Every bit of an instruction is in the table's
opcode byte or in an operand byte (R80, R81, R82): there are no sub-fields, prefixes or mode bits (R84). -/

namespace Sys2Proof

/-- `lo8(w) = w[7:0]` (R11). -/
def lo8 (w : Word) : Byte := w.extractLsb' 0 8

/-- `hi8(w) = w[15:8]` (R11). -/
def hi8 (w : Word) : Byte := w.extractLsb' 8 8

/-- `(h << 8) | l`: the byte at the lower address is the low byte (R58, R102). -/
def wordOf (l h : Byte) : Word := h ++ l

/-- The three formats of R81: F1 (no operand byte), F2 (one), F3 (two, low byte first), each with the
instruction its operand makes. -/
inductive Form where
  | implied     (i : Instr)
  | byteOperand (mk : Byte → Instr)
  | wordOperand (mk : Word → Instr)

/-- One row of R88: the opcode byte, the format with its instruction, and the default BaseCycles. -/
structure Row where
  opcode : Byte
  form   : Form
  cycles : Nat

/-- R88, opcodes 0x00 to 0x3F. -/
def rowsLow : List Row :=
  [⟨0x05, .byteOperand .oraZp, 3⟩,
   ⟨0x06, .byteOperand .aslZp, 5⟩,
   ⟨0x08, .implied .php, 3⟩,
   ⟨0x09, .byteOperand .oraImm, 2⟩,
   ⟨0x0A, .implied .aslAcc, 2⟩,
   ⟨0x0D, .wordOperand .oraAbs, 4⟩,
   ⟨0x0E, .wordOperand .aslAbs, 6⟩,
   ⟨0x10, .byteOperand .bpl, 2⟩,
   ⟨0x18, .implied .clc, 2⟩,
   ⟨0x1D, .wordOperand .oraAbsX, 4⟩,
   ⟨0x1E, .wordOperand .aslAbsX, 7⟩,
   ⟨0x20, .wordOperand .jsr, 6⟩,
   ⟨0x24, .byteOperand .bitZp, 3⟩,
   ⟨0x25, .byteOperand .andZp, 3⟩] ++
  [⟨0x26, .byteOperand .rolZp, 5⟩,
   ⟨0x28, .implied .plp, 4⟩,
   ⟨0x29, .byteOperand .andImm, 2⟩,
   ⟨0x2A, .implied .rolAcc, 2⟩,
   ⟨0x2C, .wordOperand .bitAbs, 4⟩,
   ⟨0x2D, .wordOperand .andAbs, 4⟩,
   ⟨0x2E, .wordOperand .rolAbs, 6⟩,
   ⟨0x30, .byteOperand .bmi, 2⟩,
   ⟨0x38, .implied .sec, 2⟩,
   ⟨0x3D, .wordOperand .andAbsX, 4⟩,
   ⟨0x3E, .wordOperand .rolAbsX, 7⟩]

/-- R88, opcodes 0x40 to 0x7F. -/
def rowsMidLow : List Row :=
  [⟨0x45, .byteOperand .eorZp, 3⟩,
   ⟨0x46, .byteOperand .lsrZp, 5⟩,
   ⟨0x48, .implied .pha, 3⟩,
   ⟨0x49, .byteOperand .eorImm, 2⟩,
   ⟨0x4A, .implied .lsrAcc, 2⟩,
   ⟨0x4C, .wordOperand .jmp, 3⟩,
   ⟨0x4D, .wordOperand .eorAbs, 4⟩,
   ⟨0x4E, .wordOperand .lsrAbs, 6⟩,
   ⟨0x50, .byteOperand .bvc, 2⟩,
   ⟨0x58, .implied .cli, 2⟩,
   ⟨0x5D, .wordOperand .eorAbsX, 4⟩,
   ⟨0x5E, .wordOperand .lsrAbsX, 7⟩,
   ⟨0x60, .implied .rts, 6⟩,
   ⟨0x65, .byteOperand .adcZp, 3⟩] ++
  [⟨0x66, .byteOperand .rorZp, 5⟩,
   ⟨0x68, .implied .pla, 4⟩,
   ⟨0x69, .byteOperand .adcImm, 2⟩,
   ⟨0x6A, .implied .rorAcc, 2⟩,
   ⟨0x6D, .wordOperand .adcAbs, 4⟩,
   ⟨0x6E, .wordOperand .rorAbs, 6⟩,
   ⟨0x70, .byteOperand .bvs, 2⟩,
   ⟨0x78, .implied .sei, 2⟩,
   ⟨0x7D, .wordOperand .adcAbsX, 4⟩,
   ⟨0x7E, .wordOperand .rorAbsX, 7⟩]

/-- R88, opcodes 0x80 to 0xBF. -/
def rowsMidHigh : List Row :=
  [⟨0x84, .byteOperand .styZp, 3⟩,
   ⟨0x85, .byteOperand .staZp, 3⟩,
   ⟨0x86, .byteOperand .stxZp, 3⟩,
   ⟨0x88, .implied .dey, 2⟩,
   ⟨0x8A, .implied .txa, 2⟩,
   ⟨0x8C, .wordOperand .styAbs, 4⟩,
   ⟨0x8D, .wordOperand .staAbs, 4⟩,
   ⟨0x8E, .wordOperand .stxAbs, 4⟩,
   ⟨0x90, .byteOperand .bcc, 2⟩,
   ⟨0x98, .implied .tya, 2⟩,
   ⟨0x9A, .implied .txs, 2⟩,
   ⟨0x9D, .wordOperand .staAbsX, 5⟩,
   ⟨0xA0, .byteOperand .ldyImm, 2⟩,
   ⟨0xA2, .byteOperand .ldxImm, 2⟩] ++
  [⟨0xA4, .byteOperand .ldyZp, 3⟩,
   ⟨0xA5, .byteOperand .ldaZp, 3⟩,
   ⟨0xA6, .byteOperand .ldxZp, 3⟩,
   ⟨0xA8, .implied .tay, 2⟩,
   ⟨0xA9, .byteOperand .ldaImm, 2⟩,
   ⟨0xAA, .implied .tax, 2⟩,
   ⟨0xAC, .wordOperand .ldyAbs, 4⟩,
   ⟨0xAD, .wordOperand .ldaAbs, 4⟩,
   ⟨0xAE, .wordOperand .ldxAbs, 4⟩,
   ⟨0xB0, .byteOperand .bcs, 2⟩,
   ⟨0xB8, .implied .clv, 2⟩,
   ⟨0xBA, .implied .tsx, 2⟩,
   ⟨0xBC, .wordOperand .ldyAbsX, 4⟩,
   ⟨0xBD, .wordOperand .ldaAbsX, 4⟩]

/-- R88, opcodes 0xC0 to 0xFF. -/
def rowsHigh : List Row :=
  [⟨0xC0, .byteOperand .cpyImm, 2⟩,
   ⟨0xC4, .byteOperand .cpyZp, 3⟩,
   ⟨0xC5, .byteOperand .cmpZp, 3⟩,
   ⟨0xC6, .byteOperand .decZp, 5⟩,
   ⟨0xC8, .implied .iny, 2⟩,
   ⟨0xC9, .byteOperand .cmpImm, 2⟩,
   ⟨0xCA, .implied .dex, 2⟩,
   ⟨0xCC, .wordOperand .cpyAbs, 4⟩,
   ⟨0xCD, .wordOperand .cmpAbs, 4⟩,
   ⟨0xCE, .wordOperand .decAbs, 6⟩,
   ⟨0xD0, .byteOperand .bne, 2⟩,
   ⟨0xD8, .implied .cld, 2⟩,
   ⟨0xDD, .wordOperand .cmpAbsX, 4⟩,
   ⟨0xDE, .wordOperand .decAbsX, 7⟩] ++
  [⟨0xE0, .byteOperand .cpxImm, 2⟩,
   ⟨0xE4, .byteOperand .cpxZp, 3⟩,
   ⟨0xE5, .byteOperand .sbcZp, 3⟩,
   ⟨0xE6, .byteOperand .incZp, 5⟩,
   ⟨0xE8, .implied .inx, 2⟩,
   ⟨0xE9, .byteOperand .sbcImm, 2⟩,
   ⟨0xEA, .implied .nop, 2⟩,
   ⟨0xEC, .wordOperand .cpxAbs, 4⟩,
   ⟨0xED, .wordOperand .sbcAbs, 4⟩,
   ⟨0xEE, .wordOperand .incAbs, 6⟩,
   ⟨0xF0, .byteOperand .beq, 2⟩,
   ⟨0xF8, .implied .sed, 2⟩,
   ⟨0xFD, .wordOperand .sbcAbsX, 4⟩,
   ⟨0xFE, .wordOperand .incAbsX, 7⟩]

/-- The reference opcode table (R86, R88): 105 rows. -/
def referenceTable : List Row := rowsLow ++ rowsMidLow ++ rowsMidHigh ++ rowsHigh

/-- The reference set: the opcodes to which the spec gives semantics (R86). -/
def referenceSet : List Byte := referenceTable.map (·.opcode)

/-- The row of an opcode byte in a table. -/
def findRow (op : Byte) : List Row → Option Row
  | [] => none
  | r :: rs => if r.opcode = op then some r else findRow op rs

/-- The number of operand bytes a form consumes (R81). -/
def Form.operandCount : Form → Nat
  | .implied _ => 0
  | .byteOperand _ => 1
  | .wordOperand _ => 2

/-- How many operand bytes follow an opcode byte: a function of the opcode byte alone (R84). An opcode
outside the reference set consumes none. -/
def operandCount (op : Byte) : Nat :=
  match findRow op referenceTable with
  | some r => r.form.operandCount
  | none => 0

/-- Why an opcode byte has no row: the three reasons of R90. -/
inductive Unsupported where
  /-- BRK or RTI: the core has no interrupt handling (D4). -/
  | interruptInstruction
  /-- A documented 6502 opcode in an addressing mode the source does not have (D3). -/
  | otherAddressingMode
  /-- An undocumented NMOS 6502 opcode (D5). -/
  | undocumented
  deriving DecidableEq, Repr

/-- The decoder's rejections, by name. -/
inductive Reject where
  /-- There is no opcode byte to read. -/
  | noBytes
  /-- The opcode has a row and its operand bytes are not all there. -/
  | truncated (opcode : Byte)
  /-- The opcode has no row (R90). -/
  | unsupported (opcode : Byte) (why : Unsupported)
  deriving DecidableEq, Repr

/-- The two interrupt instructions of R90: BRK and RTI. -/
def interruptOpcodes : List Byte := [0x00, 0x40]

/-- The 44 opcodes of R90 whose addressing mode is not one of the source's. -/
def otherModeOpcodes : List Byte :=
  [0x01, 0x11, 0x15, 0x16, 0x19, 0x21, 0x31, 0x35, 0x36, 0x39, 0x41] ++
  [0x51, 0x55, 0x56, 0x59, 0x61, 0x6C, 0x71, 0x75, 0x76, 0x79, 0x81] ++
  [0x91, 0x94, 0x95, 0x96, 0x99, 0xA1, 0xB1, 0xB4, 0xB5, 0xB6, 0xB9] ++
  [0xBE, 0xC1, 0xD1, 0xD5, 0xD6, 0xD9, 0xE1, 0xF1, 0xF5, 0xF6, 0xF9]

/-- The reason R90 gives for an opcode byte that has no row. -/
def unsupportedReason (op : Byte) : Unsupported :=
  if op ∈ interruptOpcodes then .interruptInstruction
  else if op ∈ otherModeOpcodes then .otherAddressingMode
  else .undocumented

/-- The operand bytes of a form, read off the front of a list of bytes (R81, R83). -/
def Form.read (op : Byte) : Form → List Byte → Except Reject (Instr × List Byte)
  | .implied i, bs => .ok (i, bs)
  | .byteOperand mk, b :: bs => .ok (mk b, bs)
  | .byteOperand _, [] => .error (.truncated op)
  | .wordOperand mk, l :: h :: bs => .ok (mk (wordOf l h), bs)
  | .wordOperand _, _ => .error (.truncated op)

/-- The decoder (R82, R84): one instruction off the front of a list of bytes, with the bytes that are left. -/
def decode : List Byte → Except Reject (Instr × List Byte)
  | [] => .error .noBytes
  | op :: bs =>
    match findRow op referenceTable with
    | some r => r.form.read op bs
    | none => .error (.unsupported op (unsupportedReason op))

/-- The opcode byte of an instruction (the `opcode` column of R88). -/
def Instr.opcode : Instr → Byte
  | .ldaImm _ => 0xA9
  | .ldaZp _ => 0xA5
  | .ldaAbs _ => 0xAD
  | .ldaAbsX _ => 0xBD
  | .ldxImm _ => 0xA2
  | .ldxZp _ => 0xA6
  | .ldxAbs _ => 0xAE
  | .ldyImm _ => 0xA0
  | .ldyZp _ => 0xA4
  | .ldyAbs _ => 0xAC
  | .ldyAbsX _ => 0xBC
  | .staZp _ => 0x85
  | .staAbs _ => 0x8D
  | .staAbsX _ => 0x9D
  | .stxZp _ => 0x86
  | .stxAbs _ => 0x8E
  | .styZp _ => 0x84
  | .styAbs _ => 0x8C
  | .adcImm _ => 0x69
  | .adcZp _ => 0x65
  | .adcAbs _ => 0x6D
  | .adcAbsX _ => 0x7D
  | .sbcImm _ => 0xE9
  | .sbcZp _ => 0xE5
  | .sbcAbs _ => 0xED
  | .sbcAbsX _ => 0xFD
  | .cmpImm _ => 0xC9
  | .cmpZp _ => 0xC5
  | .cmpAbs _ => 0xCD
  | .cmpAbsX _ => 0xDD
  | .cpxImm _ => 0xE0
  | .cpxZp _ => 0xE4
  | .cpxAbs _ => 0xEC
  | .cpyImm _ => 0xC0
  | .cpyZp _ => 0xC4
  | .cpyAbs _ => 0xCC
  | .bitZp _ => 0x24
  | .bitAbs _ => 0x2C
  | .andImm _ => 0x29
  | .andZp _ => 0x25
  | .andAbs _ => 0x2D
  | .andAbsX _ => 0x3D
  | .oraImm _ => 0x09
  | .oraZp _ => 0x05
  | .oraAbs _ => 0x0D
  | .oraAbsX _ => 0x1D
  | .eorImm _ => 0x49
  | .eorZp _ => 0x45
  | .eorAbs _ => 0x4D
  | .eorAbsX _ => 0x5D
  | .aslAcc => 0x0A
  | .aslZp _ => 0x06
  | .aslAbs _ => 0x0E
  | .aslAbsX _ => 0x1E
  | .lsrAcc => 0x4A
  | .lsrZp _ => 0x46
  | .lsrAbs _ => 0x4E
  | .lsrAbsX _ => 0x5E
  | .rolAcc => 0x2A
  | .rolZp _ => 0x26
  | .rolAbs _ => 0x2E
  | .rolAbsX _ => 0x3E
  | .rorAcc => 0x6A
  | .rorZp _ => 0x66
  | .rorAbs _ => 0x6E
  | .rorAbsX _ => 0x7E
  | .incZp _ => 0xE6
  | .incAbs _ => 0xEE
  | .incAbsX _ => 0xFE
  | .decZp _ => 0xC6
  | .decAbs _ => 0xCE
  | .decAbsX _ => 0xDE
  | .inx => 0xE8
  | .iny => 0xC8
  | .dex => 0xCA
  | .dey => 0x88
  | .tax => 0xAA
  | .txa => 0x8A
  | .tay => 0xA8
  | .tya => 0x98
  | .tsx => 0xBA
  | .txs => 0x9A
  | .pha => 0x48
  | .pla => 0x68
  | .php => 0x08
  | .plp => 0x28
  | .bpl _ => 0x10
  | .bmi _ => 0x30
  | .bvc _ => 0x50
  | .bvs _ => 0x70
  | .bcc _ => 0x90
  | .bcs _ => 0xB0
  | .bne _ => 0xD0
  | .beq _ => 0xF0
  | .jmp _ => 0x4C
  | .jsr _ => 0x20
  | .rts => 0x60
  | .clc => 0x18
  | .sec => 0x38
  | .cli => 0x58
  | .sei => 0x78
  | .clv => 0xB8
  | .cld => 0xD8
  | .sed => 0xF8
  | .nop => 0xEA

/-- The operand bytes of an instruction, in address order (R81). -/
def Instr.operandBytes : Instr → List Byte
  | .ldaImm v => [v]
  | .ldaZp z => [z]
  | .ldaAbs a => [lo8 a, hi8 a]
  | .ldaAbsX base => [lo8 base, hi8 base]
  | .ldxImm v => [v]
  | .ldxZp z => [z]
  | .ldxAbs a => [lo8 a, hi8 a]
  | .ldyImm v => [v]
  | .ldyZp z => [z]
  | .ldyAbs a => [lo8 a, hi8 a]
  | .ldyAbsX base => [lo8 base, hi8 base]
  | .staZp z => [z]
  | .staAbs a => [lo8 a, hi8 a]
  | .staAbsX base => [lo8 base, hi8 base]
  | .stxZp z => [z]
  | .stxAbs a => [lo8 a, hi8 a]
  | .styZp z => [z]
  | .styAbs a => [lo8 a, hi8 a]
  | .adcImm v => [v]
  | .adcZp z => [z]
  | .adcAbs a => [lo8 a, hi8 a]
  | .adcAbsX base => [lo8 base, hi8 base]
  | .sbcImm v => [v]
  | .sbcZp z => [z]
  | .sbcAbs a => [lo8 a, hi8 a]
  | .sbcAbsX base => [lo8 base, hi8 base]
  | .cmpImm v => [v]
  | .cmpZp z => [z]
  | .cmpAbs a => [lo8 a, hi8 a]
  | .cmpAbsX base => [lo8 base, hi8 base]
  | .cpxImm v => [v]
  | .cpxZp z => [z]
  | .cpxAbs a => [lo8 a, hi8 a]
  | .cpyImm v => [v]
  | .cpyZp z => [z]
  | .cpyAbs a => [lo8 a, hi8 a]
  | .bitZp z => [z]
  | .bitAbs a => [lo8 a, hi8 a]
  | .andImm v => [v]
  | .andZp z => [z]
  | .andAbs a => [lo8 a, hi8 a]
  | .andAbsX base => [lo8 base, hi8 base]
  | .oraImm v => [v]
  | .oraZp z => [z]
  | .oraAbs a => [lo8 a, hi8 a]
  | .oraAbsX base => [lo8 base, hi8 base]
  | .eorImm v => [v]
  | .eorZp z => [z]
  | .eorAbs a => [lo8 a, hi8 a]
  | .eorAbsX base => [lo8 base, hi8 base]
  | .aslAcc => []
  | .aslZp z => [z]
  | .aslAbs a => [lo8 a, hi8 a]
  | .aslAbsX base => [lo8 base, hi8 base]
  | .lsrAcc => []
  | .lsrZp z => [z]
  | .lsrAbs a => [lo8 a, hi8 a]
  | .lsrAbsX base => [lo8 base, hi8 base]
  | .rolAcc => []
  | .rolZp z => [z]
  | .rolAbs a => [lo8 a, hi8 a]
  | .rolAbsX base => [lo8 base, hi8 base]
  | .rorAcc => []
  | .rorZp z => [z]
  | .rorAbs a => [lo8 a, hi8 a]
  | .rorAbsX base => [lo8 base, hi8 base]
  | .incZp z => [z]
  | .incAbs a => [lo8 a, hi8 a]
  | .incAbsX base => [lo8 base, hi8 base]
  | .decZp z => [z]
  | .decAbs a => [lo8 a, hi8 a]
  | .decAbsX base => [lo8 base, hi8 base]
  | .inx => []
  | .iny => []
  | .dex => []
  | .dey => []
  | .tax => []
  | .txa => []
  | .tay => []
  | .tya => []
  | .tsx => []
  | .txs => []
  | .pha => []
  | .pla => []
  | .php => []
  | .plp => []
  | .bpl d => [d]
  | .bmi d => [d]
  | .bvc d => [d]
  | .bvs d => [d]
  | .bcc d => [d]
  | .bcs d => [d]
  | .bne d => [d]
  | .beq d => [d]
  | .jmp target => [lo8 target, hi8 target]
  | .jsr target => [lo8 target, hi8 target]
  | .rts => []
  | .clc => []
  | .sec => []
  | .cli => []
  | .sei => []
  | .clv => []
  | .cld => []
  | .sed => []
  | .nop => []

/-- The encoder: the bytes of an instruction in address order (R80, R81). -/
def encode (i : Instr) : List Byte := i.opcode :: i.operandBytes

/-- Byte `k` of a word numbered as spec/opcode_table.json numbers it: byte 0 is the opcode. -/
def tableByte (w k : Nat) : Byte := BitVec.ofNat 8 (w / 256 ^ k)

/-- The three bytes of a table word of `nbits` bits: every bit above `nbits` is 0, up to the longest
instruction (three bytes, R80). -/
def tableBytes (nbits w : Nat) : List Byte :=
  [tableByte (w % 2 ^ nbits) 0, tableByte (w % 2 ^ nbits) 1, tableByte (w % 2 ^ nbits) 2]

/-- What the decoder reads from the instruction whose bits, numbered as spec/opcode_table.json numbers them,
are `w`. -/
def decodeTableWord (nbits w : Nat) : Option Instr :=
  match decode (tableBytes nbits w) with
  | .ok (i, _) => some i
  | .error _ => none

/-- The base cycle cost of an opcode in a handler list, if the list implements it (R89, R116). -/
def findHandler (op : Byte) : List (Byte × Nat) → Option Nat
  | [] => none
  | h :: hs => if h.1 = op then some h.2 else findHandler op hs

/-- BaseCycles of an implemented opcode. `none`: the opcode is not in ImplementedOpcodes (R89). -/
def Config.handler (cfg : Config) (op : Byte) : Option Nat := findHandler op cfg.handlers

/-- The default parameters of R10: the whole reference set with the costs of R88 (D1, D10), the page penalty
of 0xBD alone (D11), and the suggested addresses of D15. DESIGN CHOICE, log entries 2 and 4 to 6. -/
def defaultConfig : Config where
  handlers := referenceTable.map fun r => (r.opcode, r.cycles)
  pagePenalty := [0xBD]
  statusAddr := 0x2002
  latchA := 0x2005
  latchB := 0x2006

end Sys2Proof
end

