-- ==== Sys2Proof/Machine/State.lean ====
section
/-! DEFINITION. The machine's state as plain data (spec/10_state.md), the reasons a step can stop, and the
machine right after reset (R40). -/

namespace Sys2Proof.Machine

/-- The bus's array (R35), as a list of (address, byte) pairs in one canonical form (`Memory.wf`): an
address that is not listed reads as `Memory.unlisted`. -/
abbrev Memory := List Host.Cell

/-- The observers a registry may name (R36, R221). The core has one. -/
inductive Observer where
  /-- The status-register observer (R221, R222). -/
  | status
  deriving DecidableEq, Repr

/-- The "full register snapshot" of R206. -/
structure Snapshot where
  pc : Word
  sp : Byte
  a  : Byte
  x  : Byte
  y  : Byte
  p  : Byte
  deriving DecidableEq, Repr

/-- The halt record (R39). -/
inductive Halt where
  /-- UnsupportedOpcode(opcode, snapshot) (R206). -/
  | unsupportedOpcode (opcode : Byte) (snapshot : Snapshot)
  deriving DecidableEq, Repr

/-- Everything the spec gives the machine, and the model's own `cycles` and `cfg` (INVENTORY.md, State). -/
structure State where
  /-- Program counter (R25). -/
  pc : Word
  /-- Stack pointer (R24). -/
  sp : Byte
  /-- Accumulator (R21). -/
  a : Byte
  /-- Index X (R22). -/
  x : Byte
  /-- Index Y (R23). -/
  y : Byte
  /-- Status byte (R26). -/
  p : Byte
  /-- The 65,536 bytes of the bus (R35). -/
  mem : Memory
  /-- The observer registry (R36; log entry 13). -/
  registry : List (Word × Observer)
  /-- The timing engine's cycle counter (R37). -/
  counter : Fin frameDots
  /-- The timing engine's internal vblank flag (R37, R38). -/
  vblank : Bool
  /-- The halt record (R39). -/
  halted : Option Halt
  /-- The count the CPU step in progress, or the last one, returns (R14, R100; log entry 8). -/
  cycles : Nat
  /-- The open parameters (R10), fixed for the machine (log entry 1). -/
  cfg : Config
  deriving DecidableEq, Repr

/-- Why the machine stops. -/
inductive Fault where
  /-- Raised by `cpuStep` (so by `step`) on a state whose halt record is set: "no further step runs" (R39,
  R120, R214). Safe: the spec runs no step there. -/
  | alreadyHalted (why : Halt)
  deriving DecidableEq, Repr

/-- Why an instruction has no meaning in the model. -/
inductive Refusal where
  /-- Raised by an arm of `exec` for an instruction without a meaning yet. No arm raises it now. Safe. -/
  | notModelled (mnemonic : String)
  deriving DecidableEq, Repr

/-- What a meaning and a step answer. -/
abbrev Result := Host.Outcome State Fault Refusal

/-- The machine right after reset (R40): the registers of R240, timing engine at counter 0 with vblank
false, the one observer registered, nothing halted; memory with nothing listed (InitMem is a launch input,
log entry 7) and the default parameters (log entries 2, 4, 5 and 6). -/
def State.reset : State where
  pc := resetPC
  sp := 0xFF
  a := 0x00
  x := 0x00
  y := 0x00
  p := 0x20
  mem := []
  registry := [(defaultConfig.statusAddr, .status)]
  counter := 0
  vblank := false
  halted := none
  cycles := 0
  cfg := defaultConfig

end Sys2Proof.Machine
end

