-- ==== Sys2Proof/Machine/Flags.lean ====
section
/-! DEFINITION. The status byte's flags (spec/10_state.md R26) and every flag computation of the spec:
SetZN, Compare, Add (spec/40_step_and_operands.md R111 to R113), the bit test (R145), the shifts and rotates
(R153 to R156) and the increments (R157, R158). Each takes the status byte and gives the new one; a flag it
does not name keeps its value. -/

namespace Sys2Proof.Machine

/-- The named flags of P (R12, R26). -/
inductive Flag where
  | c | z | i | d | v | n
  deriving DecidableEq, Repr

/-- A flag's bit position in P (R26). -/
def Flag.bit : Flag → Nat
  | .c => 0
  | .z => 1
  | .i => 2
  | .d => 3
  | .v => 6
  | .n => 7

/-- A flag of a status byte. -/
def getFlag (f : Flag) (p : Byte) : Bool := p.getLsbD f.bit

/-- `P.F <- b` (R12): one bit is written, the others stay. -/
def putFlag (f : Flag) (b : Bool) (p : Byte) : Byte :=
  if b then p ||| (1#8 <<< f.bit) else p &&& ~~~(1#8 <<< f.bit)

/-- SetZN (R111). -/
def setZN (v p : Byte) : Byte := putFlag .n v.msb (putFlag .z (v == 0) p)

/-- Compare (R112): C is the unsigned `r >= m`; Z and N come from `r - m`. -/
def compareFlags (r m p : Byte) : Byte := setZN (r - m) (putFlag .c (decide (m ≤ r)) p)

/-- The carry as the number 0 or 1 (R113). -/
def carryIn (p : Byte) : Nat := (getFlag .c p).toNat

/-- Add (R113): the sum with the carry in, and the status byte. D is not consulted. -/
def addWithCarry (a m p : Byte) : Byte × Byte :=
  let sum := a.toNat + m.toNat + carryIn p
  let r := BitVec.ofNat 8 sum
  (r, setZN r (putFlag .v (a.msb == m.msb && r.msb != a.msb) (putFlag .c (decide (0xFF < sum)) p)))

/-- BIT's flags (R145): Z from `A & m`, N and V from bits 7 and 6 of `m`. -/
def bitTestFlags (a m p : Byte) : Byte :=
  putFlag .v (m.getLsbD 6) (putFlag .n (m.getLsbD 7) (putFlag .z (a &&& m == 0) p))

/-- ASL's f (R153): the result and the status byte. -/
def aslOp (v p : Byte) : Byte × Byte := (v <<< 1, setZN (v <<< 1) (putFlag .c (v.getLsbD 7) p))

/-- LSR's f (R154). -/
def lsrOp (v p : Byte) : Byte × Byte := (v >>> 1, setZN (v >>> 1) (putFlag .c (v.getLsbD 0) p))

/-- ROL's f (R155): the old carry enters at bit 0. -/
def rolOp (v p : Byte) : Byte × Byte :=
  let r := (v <<< 1) ||| BitVec.ofNat 8 (carryIn p)
  (r, setZN r (putFlag .c (v.getLsbD 7) p))

/-- ROR's f (R156): the old carry enters at bit 7. -/
def rorOp (v p : Byte) : Byte × Byte :=
  let r := (v >>> 1) ||| (BitVec.ofNat 8 (carryIn p) <<< 7)
  (r, setZN r (putFlag .c (v.getLsbD 0) p))

/-- INC's f (R157), and that of INX and INY (R159, R160). -/
def incOp (v p : Byte) : Byte × Byte := (v + 1, setZN (v + 1) p)

/-- DEC's f (R158), and that of DEX and DEY (R161, R162). -/
def decOp (v p : Byte) : Byte × Byte := (v - 1, setZN (v - 1) p)

/-- The copy of P that PHP pushes: bits 4 and 5 set (R178). -/
def pushedStatus (p : Byte) : Byte := p ||| 0x30

/-- The P that PLP loads: bit 4 forced to 0, bit 5 to 1 (R179, R27, R28). -/
def pulledStatus (v : Byte) : Byte := (v &&& 0xCF) ||| 0x20

end Sys2Proof.Machine
end

