-- ==== Sys2Proof/Machine/Ops.lean ====
section
/-! DEFINITION. The named operations over memory, the bus, the stack and the instruction stream
(spec/20_memory.md; spec/40_step_and_operands.md R101, R114, R115), CPU reset (R240), and taking the one
exception the core has (spec/60_exceptions.md R206). There is no return from it (R214). -/

namespace Sys2Proof.Machine

/-! ## Memory as data -/

/-- What an address that is not listed reads as. DESIGN CHOICE (log entry 7): InitMem all zero (D14). -/
def Memory.unlisted : Byte := 0x00

/-- The byte at an address. -/
def Memory.read : Memory → Nat → Byte
  | [], _ => Memory.unlisted
  | c :: m, a => if c.1 = a then c.2 else Memory.read m a

/-- The memory without any entry for an address. -/
def Memory.remove (m : Memory) (a : Nat) : Memory := m.filter fun c => decide (c.1 ≠ a)

/-- An entry put before the first entry of a higher address. -/
def Memory.insert (a : Nat) (v : Byte) : Memory → Memory
  | [] => [(a, v)]
  | c :: m => if a < c.1 then (a, v) :: c :: m else c :: Memory.insert a v m

/-- A byte stored at an address. Storing what an unlisted address reads as takes the entry away, so equal
memories are equal lists. -/
def Memory.write (m : Memory) (a : Nat) (v : Byte) : Memory :=
  if v = Memory.unlisted then m.remove a else Memory.insert a v (m.remove a)

/-- Strictly rising addresses from `lo` on, below 0x10000, no entry equal to an unlisted byte. -/
def Memory.wfFrom (lo : Nat) : Memory → Bool
  | [] => true
  | c :: m =>
    decide (lo ≤ c.1) && decide (c.1 < 65536) && decide (c.2 ≠ Memory.unlisted) && Memory.wfFrom (c.1 + 1) m

/-- The canonical form. -/
def Memory.wf (m : Memory) : Bool := Memory.wfFrom 0 m

/-! ## The bus -/

/-- RawRead (R54): the byte at an address; no observer fires. -/
def rawRead (addr : Word) (s : State) : Byte := s.mem.read addr.toNat

/-- RawWrite (R54): a byte stored at an address; no observer fires. -/
def rawWrite (addr : Word) (v : Byte) (s : State) : State := { s with mem := s.mem.write addr.toNat v }

/-- The observer registered at an address, if any (R36). -/
def observerAt (addr : Word) : List (Word × Observer) → Option Observer
  | [] => none
  | e :: es => if e.1 = addr then some e.2 else observerAt addr es

/-- `register_observer` (R53): it replaces any observer at that address. -/
def registerObserver (addr : Word) (o : Observer) (es : List (Word × Observer)) : List (Word × Observer) :=
  (addr, o) :: es.filter fun e => decide (e.1 ≠ addr)

/-- What an observer does to the backing store (R55: a function to memory, built from raw accesses alone).
The status observer clears bit 7 of the status byte and zeroes both latches on a read (R221), and does
nothing on a write (R222). The three writes are raw and in this order (log entry 16). -/
def Observer.act (o : Observer) (cfg : Config) (isRead : Bool) (m : Memory) : Memory :=
  match o with
  | .status =>
    if isRead then
      ((m.write cfg.statusAddr.toNat (m.read cfg.statusAddr.toNat &&& 0x7F)).write cfg.latchA.toNat 0x00).write
        cfg.latchB.toNat 0x00
    else m

/-- The observer of an address runs once, if there is one (R56). -/
def notify (addr : Word) (isRead : Bool) (s : State) : State :=
  match observerAt addr s.registry with
  | some o => { s with mem := o.act s.cfg isRead s.mem }
  | none => s

/-- MemRead (R51): the byte as it stood, then the observer with `is_read = true`. -/
def memRead (addr : Word) (s : State) : Byte × State := (rawRead addr s, notify addr true s)

/-- MemWrite (R52): the byte is stored, then the observer runs with `is_read = false`. -/
def memWrite (addr : Word) (v : Byte) (s : State) : State := notify addr false (rawWrite addr v s)

/-! ## The instruction stream -/

/-- Fetch8 (R101): one public read at PC, then PC + 1. -/
def fetch8 (s : State) : Byte × State :=
  ((memRead s.pc s).1, { (memRead s.pc s).2 with pc := s.pc + 1 })

/-- `n` bytes fetched one after another (R101, R102). -/
def fetchBytes : Nat → State → List Byte × State
  | 0, s => ([], s)
  | n + 1, s => ((fetch8 s).1 :: (fetchBytes n (fetch8 s).2).1, (fetchBytes n (fetch8 s).2).2)

/-! ## The stack -/

/-- The address the stack pointer names: `0x0100 + SP` (R24). -/
def stackAddr (sp : Byte) : Word := 0x0100 + sp.setWidth 16

/-- Push (R114): a public write at `0x0100 + SP`, then SP - 1. -/
def push (v : Byte) (s : State) : State :=
  { memWrite (stackAddr s.sp) v s with sp := s.sp - 1 }

/-- Pop (R115): SP + 1, then a public read at `0x0100 + SP`. -/
def pop (s : State) : Byte × State := memRead (stackAddr (s.sp + 1)) { s with sp := s.sp + 1 }

/-! ## Reset and the one exception -/

/-- CPU reset (R240): the six registers and nothing else. -/
def cpuReset (s : State) : State :=
  { s with pc := resetPC, sp := 0xFF, a := 0x00, x := 0x00, y := 0x00, p := 0x20 }

/-- The full register snapshot (R206). -/
def snapshot (s : State) : Snapshot where
  pc := s.pc
  sp := s.sp
  a := s.a
  x := s.x
  y := s.y
  p := s.p

/-- UnsupportedOpcode (R206, R213), taken in the state after the opcode's fetch: it saves the opcode and the
snapshot in the halt record, the step returns 0 cycles, and nothing else changes (log entry 10). -/
def takeUnsupported (op : Byte) (s : State) : State :=
  { s with halted := some (.unsupportedOpcode op (snapshot s)), cycles := 0 }

end Sys2Proof.Machine
end

