-- ==== Sys2Proof/Machine/Operands.lean ====
section
/-! DEFINITION. The addressing modes (spec/40_step_and_operands.md R104 to R109), the forms an operand is
read, written or modified through, and the cycle adjustments (R117, R118).

The operand bytes of an instruction are fetched by the step, each by one public read in address order, before
its meaning runs (R25, R119), and stand in the instruction as its argument. So when a meaning runs PC is the
address of the next instruction. The immediate byte is read by that same public read: R105 and R110 give it
one read, at the operand byte's own address, after the opcode's (log entry 9). -/

namespace Sys2Proof.Machine

/-- `zext_16` (R11). -/
def zext16 (b : Byte) : Word := b.setWidth 16

/-- `sext_16` (R11). -/
def sext16 (b : Byte) : Word := b.signExtend 16

/-- Zero-page (R106). -/
def zpAddr (z : Byte) : Word := zext16 z

/-- Absolute-indexed (X) (R108): the sum wraps at 16 bits. -/
def absXAddr (base : Word) (s : State) : Word := base + zext16 s.x

/-- The page-crossing test of R108 and R117: the high bytes differ. -/
def crossesPage (w1 w2 : Word) : Bool := hi8 w1 != hi8 w2

/-- The page penalty (R118): one cycle for an opcode in PagePenaltyOpcodes whose sum crosses a page, whatever
the instruction does with the operand (log entry 5). -/
def absXPenalty (op : Byte) (base : Word) (s : State) : State :=
  if s.cfg.pagePenalty.contains op && crossesPage base (absXAddr base s) then { s with cycles := s.cycles + 1 }
  else s

/-- Load (R110) of a zero-page operand. -/
def readZp (z : Byte) (s : State) : Byte × State := memRead (zpAddr z) s

/-- Load (R110) of an absolute operand (R107). -/
def readAbs (a : Word) (s : State) : Byte × State := memRead a s

/-- Load (R110) of an absolute-indexed operand, for the opcode that may pay the penalty. -/
def readAbsX (op : Byte) (base : Word) (s : State) : Byte × State :=
  memRead (absXAddr base s) (absXPenalty op base s)

/-- A store through the zero-page mode. -/
def writeZp (z v : Byte) (s : State) : State := memWrite (zpAddr z) v s

/-- A store through the absolute mode. -/
def writeAbs (a : Word) (v : Byte) (s : State) : State := memWrite a v s

/-- A store through the absolute-indexed mode. -/
def writeAbsX (op : Byte) (base : Word) (v : Byte) (s : State) : State :=
  memWrite (absXAddr base s) v (absXPenalty op base s)

/-- Read-modify-write (spec/43_logic_shift_incdec.md): one public read, `f` on the byte and the status byte,
one public write of the result. -/
def modifyAt (f : Byte → Byte → Byte × Byte) (ea : Word) (s : State) : State :=
  memWrite ea (f (memRead ea s).1 (memRead ea s).2.p).1
    { (memRead ea s).2 with p := (f (memRead ea s).1 (memRead ea s).2.p).2 }

/-- Read-modify-write through the zero-page mode. -/
def modifyZp (f : Byte → Byte → Byte × Byte) (z : Byte) (s : State) : State := modifyAt f (zpAddr z) s

/-- Read-modify-write through the absolute mode. -/
def modifyAbs (f : Byte → Byte → Byte × Byte) (a : Word) (s : State) : State := modifyAt f a s

/-- Read-modify-write through the absolute-indexed mode. -/
def modifyAbsX (op : Byte) (f : Byte → Byte → Byte × Byte) (base : Word) (s : State) : State :=
  modifyAt f (absXAddr base s) (absXPenalty op base s)

/-- The accumulator form of a read-modify-write (R104): `A <- f(A)`. -/
def modifyA (f : Byte → Byte → Byte × Byte) (s : State) : State :=
  { s with a := (f s.a s.p).1, p := (f s.a s.p).2 }

/-- Relative (R109): the displacement is added to the address of the next instruction. -/
def branchTarget (d : Byte) (pcNext : Word) : Word := pcNext + sext16 d

/-- Branch(cond) (R182): taken, it costs one cycle more, and one more again if the target lies on another page
than the next instruction (R117). -/
def branch (cond : Bool) (d : Byte) (s : State) : State :=
  if cond then
    { s with
      pc := branchTarget d s.pc
      cycles := s.cycles + 1 + (crossesPage (branchTarget d s.pc) s.pc).toNat }
  else s

end Sys2Proof.Machine
end

