-- ==== Sys2Proof/Machine/Arithmetic.lean ====
section
/-! DEFINITION. Arithmetic, compare and bit test (spec/42_arithmetic_compare.md R140 to R145). Each takes the byte
its operand form read and the state after that read. -/

namespace Sys2Proof.Machine

/-- A <- Add(A, m) (R140). -/
def addA (r : Byte × State) : State :=
  { r.2 with a := (addWithCarry r.2.a r.1 r.2.p).1, p := (addWithCarry r.2.a r.1 r.2.p).2 }

/-- A <- Add(A, ~m) (R141). -/
def subtractA (r : Byte × State) : State := addA (~~~r.1, r.2)

/-- Compare(A, m) (R142). -/
def compareA (r : Byte × State) : State := { r.2 with p := compareFlags r.2.a r.1 r.2.p }

/-- Compare(X, m) (R143). -/
def compareX (r : Byte × State) : State := { r.2 with p := compareFlags r.2.x r.1 r.2.p }

/-- Compare(Y, m) (R144). -/
def compareY (r : Byte × State) : State := { r.2 with p := compareFlags r.2.y r.1 r.2.p }

/-- The bit test of A and m (R145). -/
def bitTestA (r : Byte × State) : State := { r.2 with p := bitTestFlags r.2.a r.1 r.2.p }

/-- ADC, immediate (R140). -/
def execAdcImm (v : Byte) (s : State) : Result := .next (addA (v, s))

/-- ADC, zero-page (R140). -/
def execAdcZp (z : Byte) (s : State) : Result := .next (addA (readZp z s))

/-- ADC, absolute (R140). -/
def execAdcAbs (a : Word) (s : State) : Result := .next (addA (readAbs a s))

/-- ADC, absolute-indexed (X) (R140). -/
def execAdcAbsX (base : Word) (s : State) : Result := .next (addA (readAbsX 0x7D base s))

/-- SBC, immediate (R141). -/
def execSbcImm (v : Byte) (s : State) : Result := .next (subtractA (v, s))

/-- SBC, zero-page (R141). -/
def execSbcZp (z : Byte) (s : State) : Result := .next (subtractA (readZp z s))

/-- SBC, absolute (R141). -/
def execSbcAbs (a : Word) (s : State) : Result := .next (subtractA (readAbs a s))

/-- SBC, absolute-indexed (X) (R141). -/
def execSbcAbsX (base : Word) (s : State) : Result := .next (subtractA (readAbsX 0xFD base s))

/-- CMP, immediate (R142). -/
def execCmpImm (v : Byte) (s : State) : Result := .next (compareA (v, s))

/-- CMP, zero-page (R142). -/
def execCmpZp (z : Byte) (s : State) : Result := .next (compareA (readZp z s))

/-- CMP, absolute (R142). -/
def execCmpAbs (a : Word) (s : State) : Result := .next (compareA (readAbs a s))

/-- CMP, absolute-indexed (X) (R142). -/
def execCmpAbsX (base : Word) (s : State) : Result := .next (compareA (readAbsX 0xDD base s))

/-- CPX, immediate (R143). -/
def execCpxImm (v : Byte) (s : State) : Result := .next (compareX (v, s))

/-- CPX, zero-page (R143). -/
def execCpxZp (z : Byte) (s : State) : Result := .next (compareX (readZp z s))

/-- CPX, absolute (R143). -/
def execCpxAbs (a : Word) (s : State) : Result := .next (compareX (readAbs a s))

/-- CPY, immediate (R144). -/
def execCpyImm (v : Byte) (s : State) : Result := .next (compareY (v, s))

/-- CPY, zero-page (R144). -/
def execCpyZp (z : Byte) (s : State) : Result := .next (compareY (readZp z s))

/-- CPY, absolute (R144). -/
def execCpyAbs (a : Word) (s : State) : Result := .next (compareY (readAbs a s))

/-- BIT, zero-page (R145). -/
def execBitZp (z : Byte) (s : State) : Result := .next (bitTestA (readZp z s))

/-- BIT, absolute (R145). -/
def execBitAbs (a : Word) (s : State) : Result := .next (bitTestA (readAbs a s))

end Sys2Proof.Machine
end

