-- ==== Sys2Proof/Machine/Control.lean ====
section
/-! DEFINITION. Branches, jumps and subroutines (spec/45_control_flow.md R182 to R193). When a meaning runs, PC is
the address of the next instruction. -/

namespace Sys2Proof.Machine

/-- BPL (R183). -/
def execBpl (d : Byte) (s : State) : Result := .next (branch (!getFlag .n s.p) d s)

/-- BMI (R184). -/
def execBmi (d : Byte) (s : State) : Result := .next (branch (getFlag .n s.p) d s)

/-- BVC (R185). -/
def execBvc (d : Byte) (s : State) : Result := .next (branch (!getFlag .v s.p) d s)

/-- BVS (R186). -/
def execBvs (d : Byte) (s : State) : Result := .next (branch (getFlag .v s.p) d s)

/-- BCC (R187). -/
def execBcc (d : Byte) (s : State) : Result := .next (branch (!getFlag .c s.p) d s)

/-- BCS (R188). -/
def execBcs (d : Byte) (s : State) : Result := .next (branch (getFlag .c s.p) d s)

/-- BNE (R189). -/
def execBne (d : Byte) (s : State) : Result := .next (branch (!getFlag .z s.p) d s)

/-- BEQ (R190). -/
def execBeq (d : Byte) (s : State) : Result := .next (branch (getFlag .z s.p) d s)

/-- JMP (R191). -/
def execJmp (target : Word) (s : State) : Result := .next { s with pc := target }

/-- JSR (R192). The pushed word is PC - 1, high byte first. -/
def execJsr (target : Word) (s : State) : Result := .next { push (lo8 (s.pc - 1)) (push (hi8 (s.pc - 1)) s) with pc := target }

/-- RTS (R193). Low byte first, and the asymmetric + 1. -/
def execRts (s : State) : Result := .next { (pop (pop s).2).2 with pc := wordOf (pop s).1 (pop (pop s).2).1 + 1 }

end Sys2Proof.Machine
end

