-- ==== Sys2Proof/Machine/FlagOps.lean ====
section
/-! DEFINITION. Flag instructions and NOP (spec/46_flags_misc.md R196 to R203). Each writes the flag it names, or none. -/

namespace Sys2Proof.Machine

/-- CLC (R196). -/
def execClc (s : State) : Result := .next { s with p := putFlag .c false s.p }

/-- SEC (R197). -/
def execSec (s : State) : Result := .next { s with p := putFlag .c true s.p }

/-- CLI (R198). -/
def execCli (s : State) : Result := .next { s with p := putFlag .i false s.p }

/-- SEI (R199). -/
def execSei (s : State) : Result := .next { s with p := putFlag .i true s.p }

/-- CLV (R200). -/
def execClv (s : State) : Result := .next { s with p := putFlag .v false s.p }

/-- CLD (R201). -/
def execCld (s : State) : Result := .next { s with p := putFlag .d false s.p }

/-- SED (R202). -/
def execSed (s : State) : Result := .next { s with p := putFlag .d true s.p }

/-- NOP (R203). Nothing beyond the opcode fetch. -/
def execNop (s : State) : Result := .next s

end Sys2Proof.Machine
end

