-- ==== Sys2Proof/Machine/LoadStore.lean ====
section
/-! DEFINITION. Loads and stores (spec/41_load_store.md R130 to R135). A load takes the byte its operand form
read and the state after that read. -/

namespace Sys2Proof.Machine

/-- A <- v; SetZN(v) (R130). -/
def loadA (r : Byte × State) : State := { r.2 with a := r.1, p := setZN r.1 r.2.p }

/-- X <- v; SetZN(v) (R131). -/
def loadX (r : Byte × State) : State := { r.2 with x := r.1, p := setZN r.1 r.2.p }

/-- Y <- v; SetZN(v) (R132). -/
def loadY (r : Byte × State) : State := { r.2 with y := r.1, p := setZN r.1 r.2.p }

/-- LDA, immediate (R130). -/
def execLdaImm (v : Byte) (s : State) : Result := .next (loadA (v, s))

/-- LDA, zero-page (R130). -/
def execLdaZp (z : Byte) (s : State) : Result := .next (loadA (readZp z s))

/-- LDA, absolute (R130). -/
def execLdaAbs (a : Word) (s : State) : Result := .next (loadA (readAbs a s))

/-- LDA, absolute-indexed (X) (R130). -/
def execLdaAbsX (base : Word) (s : State) : Result := .next (loadA (readAbsX 0xBD base s))

/-- LDX, immediate (R131). -/
def execLdxImm (v : Byte) (s : State) : Result := .next (loadX (v, s))

/-- LDX, zero-page (R131). -/
def execLdxZp (z : Byte) (s : State) : Result := .next (loadX (readZp z s))

/-- LDX, absolute (R131). -/
def execLdxAbs (a : Word) (s : State) : Result := .next (loadX (readAbs a s))

/-- LDY, immediate (R132). -/
def execLdyImm (v : Byte) (s : State) : Result := .next (loadY (v, s))

/-- LDY, zero-page (R132). -/
def execLdyZp (z : Byte) (s : State) : Result := .next (loadY (readZp z s))

/-- LDY, absolute (R132). -/
def execLdyAbs (a : Word) (s : State) : Result := .next (loadY (readAbs a s))

/-- LDY, absolute-indexed (X) (R132). -/
def execLdyAbsX (base : Word) (s : State) : Result := .next (loadY (readAbsX 0xBC base s))

/-- STA, zero-page (R133). The target is not read first. -/
def execStaZp (z : Byte) (s : State) : Result := .next (writeZp z s.a s)

/-- STA, absolute (R133). The target is not read first. -/
def execStaAbs (a : Word) (s : State) : Result := .next (writeAbs a s.a s)

/-- STA, absolute-indexed (X) (R133). The target is not read first. -/
def execStaAbsX (base : Word) (s : State) : Result := .next (writeAbsX 0x9D base s.a s)

/-- STX, zero-page (R134). -/
def execStxZp (z : Byte) (s : State) : Result := .next (writeZp z s.x s)

/-- STX, absolute (R134). -/
def execStxAbs (a : Word) (s : State) : Result := .next (writeAbs a s.x s)

/-- STY, zero-page (R135). -/
def execStyZp (z : Byte) (s : State) : Result := .next (writeZp z s.y s)

/-- STY, absolute (R135). -/
def execStyAbs (a : Word) (s : State) : Result := .next (writeAbs a s.y s)

end Sys2Proof.Machine
end

