-- ==== Sys2Proof/Machine/Logic.lean ====
section
/-! DEFINITION. Logic, shifts, rotates, increments and decrements (spec/43_logic_shift_incdec.md R150 to R162). -/

namespace Sys2Proof.Machine

/-- A <- A & m; SetZN(A) (R150). -/
def andA (r : Byte × State) : State := { r.2 with a := r.2.a &&& r.1, p := setZN (r.2.a &&& r.1) r.2.p }

/-- A <- A | m; SetZN(A) (R151). -/
def orA (r : Byte × State) : State := { r.2 with a := r.2.a ||| r.1, p := setZN (r.2.a ||| r.1) r.2.p }

/-- A <- A ^ m; SetZN(A) (R152). -/
def xorA (r : Byte × State) : State := { r.2 with a := r.2.a ^^^ r.1, p := setZN (r.2.a ^^^ r.1) r.2.p }

/-- AND, immediate (R150). -/
def execAndImm (v : Byte) (s : State) : Result := .next (andA (v, s))

/-- AND, zero-page (R150). -/
def execAndZp (z : Byte) (s : State) : Result := .next (andA (readZp z s))

/-- AND, absolute (R150). -/
def execAndAbs (a : Word) (s : State) : Result := .next (andA (readAbs a s))

/-- AND, absolute-indexed (X) (R150). -/
def execAndAbsX (base : Word) (s : State) : Result := .next (andA (readAbsX 0x3D base s))

/-- ORA, immediate (R151). -/
def execOraImm (v : Byte) (s : State) : Result := .next (orA (v, s))

/-- ORA, zero-page (R151). -/
def execOraZp (z : Byte) (s : State) : Result := .next (orA (readZp z s))

/-- ORA, absolute (R151). -/
def execOraAbs (a : Word) (s : State) : Result := .next (orA (readAbs a s))

/-- ORA, absolute-indexed (X) (R151). -/
def execOraAbsX (base : Word) (s : State) : Result := .next (orA (readAbsX 0x1D base s))

/-- EOR, immediate (R152). -/
def execEorImm (v : Byte) (s : State) : Result := .next (xorA (v, s))

/-- EOR, zero-page (R152). -/
def execEorZp (z : Byte) (s : State) : Result := .next (xorA (readZp z s))

/-- EOR, absolute (R152). -/
def execEorAbs (a : Word) (s : State) : Result := .next (xorA (readAbs a s))

/-- EOR, absolute-indexed (X) (R152). -/
def execEorAbsX (base : Word) (s : State) : Result := .next (xorA (readAbsX 0x5D base s))

/-- ASL, accumulator form (R153). -/
def execAslAcc (s : State) : Result := .next (modifyA aslOp s)

/-- ASL, zero-page (R153). -/
def execAslZp (z : Byte) (s : State) : Result := .next (modifyZp aslOp z s)

/-- ASL, absolute (R153). -/
def execAslAbs (a : Word) (s : State) : Result := .next (modifyAbs aslOp a s)

/-- ASL, absolute-indexed (X) (R153). -/
def execAslAbsX (base : Word) (s : State) : Result := .next (modifyAbsX 0x1E aslOp base s)

/-- LSR, accumulator form (R154). -/
def execLsrAcc (s : State) : Result := .next (modifyA lsrOp s)

/-- LSR, zero-page (R154). -/
def execLsrZp (z : Byte) (s : State) : Result := .next (modifyZp lsrOp z s)

/-- LSR, absolute (R154). -/
def execLsrAbs (a : Word) (s : State) : Result := .next (modifyAbs lsrOp a s)

/-- LSR, absolute-indexed (X) (R154). -/
def execLsrAbsX (base : Word) (s : State) : Result := .next (modifyAbsX 0x5E lsrOp base s)

/-- ROL, accumulator form (R155). -/
def execRolAcc (s : State) : Result := .next (modifyA rolOp s)

/-- ROL, zero-page (R155). -/
def execRolZp (z : Byte) (s : State) : Result := .next (modifyZp rolOp z s)

/-- ROL, absolute (R155). -/
def execRolAbs (a : Word) (s : State) : Result := .next (modifyAbs rolOp a s)

/-- ROL, absolute-indexed (X) (R155). -/
def execRolAbsX (base : Word) (s : State) : Result := .next (modifyAbsX 0x3E rolOp base s)

/-- ROR, accumulator form (R156). -/
def execRorAcc (s : State) : Result := .next (modifyA rorOp s)

/-- ROR, zero-page (R156). -/
def execRorZp (z : Byte) (s : State) : Result := .next (modifyZp rorOp z s)

/-- ROR, absolute (R156). -/
def execRorAbs (a : Word) (s : State) : Result := .next (modifyAbs rorOp a s)

/-- ROR, absolute-indexed (X) (R156). -/
def execRorAbsX (base : Word) (s : State) : Result := .next (modifyAbsX 0x7E rorOp base s)

/-- INC, zero-page (R157). -/
def execIncZp (z : Byte) (s : State) : Result := .next (modifyZp incOp z s)

/-- INC, absolute (R157). -/
def execIncAbs (a : Word) (s : State) : Result := .next (modifyAbs incOp a s)

/-- INC, absolute-indexed (X) (R157). -/
def execIncAbsX (base : Word) (s : State) : Result := .next (modifyAbsX 0xFE incOp base s)

/-- DEC, zero-page (R158). -/
def execDecZp (z : Byte) (s : State) : Result := .next (modifyZp decOp z s)

/-- DEC, absolute (R158). -/
def execDecAbs (a : Word) (s : State) : Result := .next (modifyAbs decOp a s)

/-- DEC, absolute-indexed (X) (R158). -/
def execDecAbsX (base : Word) (s : State) : Result := .next (modifyAbsX 0xDE decOp base s)

/-- INX (R159). -/
def execInx (s : State) : Result := .next { s with x := (incOp s.x s.p).1, p := (incOp s.x s.p).2 }

/-- INY (R160). -/
def execIny (s : State) : Result := .next { s with y := (incOp s.y s.p).1, p := (incOp s.y s.p).2 }

/-- DEX (R161). -/
def execDex (s : State) : Result := .next { s with x := (decOp s.x s.p).1, p := (decOp s.x s.p).2 }

/-- DEY (R162). -/
def execDey (s : State) : Result := .next { s with y := (decOp s.y s.p).1, p := (decOp s.y s.p).2 }

end Sys2Proof.Machine
end

