-- ==== Sys2Proof/Machine/Transfer.lean ====
section
/-! DEFINITION. Transfers and stack (spec/44_transfer_stack.md R170 to R179). -/

namespace Sys2Proof.Machine

/-- TAX (R170). -/
def execTax (s : State) : Result := .next { s with x := s.a, p := setZN s.a s.p }

/-- TXA (R171). -/
def execTxa (s : State) : Result := .next { s with a := s.x, p := setZN s.x s.p }

/-- TAY (R172). -/
def execTay (s : State) : Result := .next { s with y := s.a, p := setZN s.a s.p }

/-- TYA (R173). -/
def execTya (s : State) : Result := .next { s with a := s.y, p := setZN s.y s.p }

/-- TSX (R174). -/
def execTsx (s : State) : Result := .next { s with x := s.sp, p := setZN s.sp s.p }

/-- TXS (R175). TXS sets no flag. -/
def execTxs (s : State) : Result := .next { s with sp := s.x }

/-- PHA (R176). -/
def execPha (s : State) : Result := .next (push s.a s)

/-- PLA (R177). -/
def execPla (s : State) : Result := .next { (pop s).2 with a := (pop s).1, p := setZN (pop s).1 (pop s).2.p }

/-- PHP (R178). P itself is unchanged. -/
def execPhp (s : State) : Result := .next (push (pushedStatus s.p) s)

/-- PLP (R179). -/
def execPlp (s : State) : Result := .next { (pop s).2 with p := pulledStatus (pop s).1 }

end Sys2Proof.Machine
end

