-- ==== Sys2Proof/Machine/Fetch.lean ====
section
/-! DEFINITION. The front half of the CPU step (spec/40_step_and_operands.md R100): fetch the opcode, look up
its handler, fetch the operand bytes, decode. And where an instruction is placed for the next fetch. -/

namespace Sys2Proof.Machine

/-- What the front half of a CPU step gives. -/
inductive Fetched where
  /-- An implemented instruction, in the state its operation runs from: PC past its bytes (R25), `cycles` its
  base cost (R116). -/
  | instr (i : Instr) (s : State)
  /-- An opcode without a handler (R206), in the state after the opcode's fetch. -/
  | unsupported (op : Byte) (s : State)
  deriving DecidableEq, Repr

/-- The operand bytes of an implemented opcode are fetched and the instruction decoded (R100). An opcode that
the parameters name and the reference table does not has no rule, so no handler (log entry 12). -/
def fetchOperands (op : Byte) (base : Nat) (s : State) : Fetched :=
  match decode (op :: (fetchBytes (operandCount op) s).1) with
  | .ok (i, _) => .instr i { (fetchBytes (operandCount op) s).2 with cycles := base }
  | .error _ => .unsupported op s

/-- The front half of the CPU step (R100, R101, R206): no operand byte is read for an opcode outside
ImplementedOpcodes. -/
def fetchInstr (s : State) : Fetched :=
  match s.cfg.handler (fetch8 s).1 with
  | some base => fetchOperands (fetch8 s).1 base (fetch8 s).2
  | none => .unsupported (fetch8 s).1 (fetch8 s).2

/-- Bytes stored one after another from an address on, each address modulo 0x10000 (R57), no observer
firing. -/
def placeBytes (addr : Word) : List Byte → State → State
  | [], s => s
  | b :: bs, s => placeBytes (addr + 1) bs (rawWrite addr b s)

end Sys2Proof.Machine
end

