-- ==== Sys2Proof/Machine/CpuStep.lean ====
section
/-! DEFINITION. The CPU step (spec/40_step_and_operands.md R100, R120). -/

namespace Sys2Proof.Machine

/-- One CPU step. It runs only where nothing is halted (R120). It executes one whole instruction, or takes
UnsupportedOpcode (R206). -/
def cpuStep (s : State) : Result :=
  match s.halted with
  | some h => .fault (.alreadyHalted h)
  | none =>
    match fetchInstr s with
    | .instr i t => exec i t
    | .unsupported op t => .next (takeUnsupported op t)

end Sys2Proof.Machine
end

