-- ==== Sys2Proof/Machine/Timing.lean ====
section
/-! DEFINITION. The timing engine (spec/60_exceptions.md R216 to R220) and the timing half of a system step
(R225, R226). -/

namespace Sys2Proof.Machine

/-- The next value of the cycle counter: 341 * 262 wraps to 0 (R216). -/
def nextCounter (c : Fin frameDots) : Fin frameDots :=
  if h : c.val + 1 < frameDots then ⟨c.val + 1, h⟩ else ⟨0, by decide⟩

/-- The scanline, always recomputed from the counter (R37, R216). -/
def scanline (c : Fin frameDots) : Nat := c.val / dotsPerLine

/-- Vblank cleared in the internal flag and in bit 7 of the status byte, bits 6:0 kept (R217). -/
def clearVblank (s : State) : State :=
  rawWrite s.cfg.statusAddr (rawRead s.cfg.statusAddr s &&& 0x7F) { s with vblank := false }

/-- Vblank set in the internal flag and in bit 7 of the status byte, bits 6:0 kept (R218). -/
def setVblank (s : State) : State :=
  rawWrite s.cfg.statusAddr (rawRead s.cfg.statusAddr s ||| 0x80) { s with vblank := true }

/-- The action of the scanline's band: scanline 20 clears, scanlines above 260 set, the others hold (R217 to
R219). -/
def actOnBand (s : State) : State :=
  if scanline s.counter = 20 then clearVblank s
  else if 260 < scanline s.counter then setVblank s
  else s

/-- One timing step (R216): the counter first, then the action of the new scanline. -/
def timingStep (s : State) : State := actOnBand { s with counter := nextCounter s.counter }

/-- `n` timing steps. -/
def timingSteps : Nat → State → State
  | 0, s => s
  | n + 1, s => timingSteps n (timingStep s)

/-- What the run loop does after a CPU step: three timing steps for each cycle (R225), and none after an
UnsupportedOpcode (R226). -/
def runTiming (s : State) : State :=
  match s.halted with
  | none => timingSteps (timingRatio * s.cycles) s
  | some _ => s

end Sys2Proof.Machine
end

