-- ==== Sys2Proof/Machine/Step.lean ====
section
/-! DEFINITION. One step of the machine: the run loop's system step (spec/60_exceptions.md R225; log
entry 11). -/

namespace Sys2Proof.Machine

/-- SystemStep (R225): one CPU step, then its timing steps. -/
def step (s : State) : Host.Outcome State Fault Refusal :=
  match cpuStep s with
  | .next t => .next (runTiming t)
  | .fault r => .fault r
  | .refused r => .refused r

/-- `s` with the instruction whose bits are `w` (numbered as spec/opcode_table.json numbers them) at PC, where
the step fetches next (log entry 14). -/
def State.withFetchWord (s : State) (nbits w : Nat) : State := placeBytes s.pc (tableBytes nbits w) s

end Sys2Proof.Machine
end

