-- ==== Sys2Proof/Machine/Launch.lean ====
section
/-! DEFINITION. The launch (spec/70_reset_and_hazards.md R242 to R249): a ROM image is checked and its program
banks are copied over InitMem, then the machine is constructed and reset. The loader is an external
collaborator (spec/00_scope.md R6). It is modelled because its rules say what memory a run starts from. -/

namespace Sys2Proof.Machine

/-- A ROM image: the bytes of the file. -/
abbrev Image := List Byte

/-- Why there is no launch. -/
inductive LaunchError where
  /-- MalformedImage (R249): the magic is wrong, the header is not all there, or the bank counts do not fit the
  file's length. Safe. -/
  | malformedImage
  /-- A program-bank count other than 1 or 2 (R246, D22). Safe. -/
  | bankCountRefused (count : Nat)
  deriving DecidableEq, Repr

/-- What a launch gives: the machine, and the pattern banks, which no instruction can reach (R248). -/
structure Launched where
  state        : State
  patternBanks : List Byte
  deriving DecidableEq, Repr

/-- Byte `k` of an image, if it has one. -/
def imageByte (img : Image) (k : Nat) : Option Byte := (img.drop k).head?

/-- Bytes 0 to 2 are the ASCII literal "NES" (R245). -/
def hasMagic (img : Image) : Bool := img.take 3 == [0x4E, 0x45, 0x53]

/-- A count byte of the header (R245): byte 4 counts program banks, byte 5 pattern banks. -/
def bankCount (img : Image) (k : Nat) : Nat :=
  match imageByte img k with
  | some b => b.toNat
  | none => 0

/-- The length a file with these bank counts has (R245, R246, R248). DESIGN CHOICE (log entry 15): a file of any
other length is inconsistent with its bank counts. -/
def expectedLength (img : Image) : Nat :=
  headerLength + programBankSize * bankCount img 4 + patternBankSize * bankCount img 5

/-- Program bank `k`: file bytes `0x10 + 16384*k` on (R246). -/
def programBank (img : Image) (k : Nat) : List Byte :=
  (img.drop (headerLength + programBankSize * k)).take programBankSize

/-- The pattern banks: what follows the program banks (R248). -/
def patternBytes (img : Image) : List Byte := img.drop (headerLength + programBankSize * bankCount img 4)

/-- Bytes copied to consecutive addresses. -/
def Memory.load (a : Nat) : List Byte → Memory → Memory
  | [], m => m
  | b :: bs, m => Memory.load (a + 1) bs (m.write a b)

/-- The copy of one or two program banks (R246), one bank being mirrored into 0xC000 (R247). -/
def loadBanks (img : Image) (initMem : Memory) : Memory :=
  if bankCount img 4 = 1 then
    Memory.load 0xC000 (programBank img 0) (Memory.load 0x8000 (programBank img 0) initMem)
  else Memory.load 0xC000 (programBank img 1) (Memory.load 0x8000 (programBank img 0) initMem)

/-- Construction and reset over a memory (R242, steps 3 to 5): the timing engine at 0 with vblank false, the
status observer registered in an empty registry, nothing halted, then CPU reset. -/
def construct (cfg : Config) (mem : Memory) : State :=
  cpuReset
    { pc := 0, sp := 0, a := 0, x := 0, y := 0, p := 0, mem := mem
      registry := registerObserver cfg.statusAddr .status []
      counter := ⟨0, by decide⟩, vblank := false, halted := none, cycles := 0, cfg := cfg }

/-- The launch (R242): parameters, InitMem and an image give a machine, or the reason there is none. -/
def launch (cfg : Config) (initMem : Memory) (img : Image) : Except LaunchError Launched :=
  if !hasMagic img || decide (img.length < headerLength) then .error .malformedImage
  else if bankCount img 4 ≠ 1 ∧ bankCount img 4 ≠ 2 then .error (.bankCountRefused (bankCount img 4))
  else if img.length ≠ expectedLength img then .error .malformedImage
  else .ok ⟨construct cfg (loadBanks img initMem), patternBytes img⟩

end Sys2Proof.Machine
end

