-- ==== Sys2Proof/WellFormed.lean ====
section
/-! DEFINITION. The checks that make a parameter record one the spec allows (spec/00_scope.md R10 with D1,
D10, D15, R66), and the check that an instruction is one a machine with those parameters executes (R89). An
instruction's operands need no check of their own: their types admit exactly the values its bytes can hold. -/

namespace Sys2Proof

/-- No opcode is listed twice: ImplementedOpcodes is a set and BaseCycles a function. -/
def Config.handlersDistinct (cfg : Config) : Bool := decide ((cfg.handlers.map (·.1)).Nodup)

/-- ImplementedOpcodes is a subset of the reference set (R89). -/
def Config.handlersInReference (cfg : Config) : Bool :=
  cfg.handlers.all fun h => decide (h.1 ∈ referenceSet)

/-- ImplementedOpcodes contains 0xA9, 0x8D and 0x38 (R89). -/
def Config.sourceOpcodesImplemented (cfg : Config) : Bool :=
  (cfg.handler 0xA9).isSome && (cfg.handler 0x8D).isSome && (cfg.handler 0x38).isSome

/-- Every base cost is positive (D10). -/
def Config.costsPositive (cfg : Config) : Bool := cfg.handlers.all fun h => decide (0 < h.2)

/-- STATUS_ADDR, LATCH_ADDR_A and LATCH_ADDR_B are three distinct addresses (D15). -/
def Config.addressesDistinct (cfg : Config) : Bool :=
  cfg.statusAddr != cfg.latchA && cfg.statusAddr != cfg.latchB && cfg.latchA != cfg.latchB

/-- None of the three lies in a ROM window, 0x8000 to 0xFFFF (D15). That none lies in the inert range is
`Config.addressesOutsideInertRange`. -/
def Config.addressesOutsideRom (cfg : Config) : Bool :=
  decide (cfg.statusAddr < 0x8000) && decide (cfg.latchA < 0x8000) && decide (cfg.latchB < 0x8000)

/-- An address of the inert range, 0x4000 to 0x4017 (R9, R66). -/
def inInertRange (a : Word) : Bool := decide (0x4000 ≤ a) && decide (a ≤ 0x4017)

/-- None of the three lies in the inert range: no observer is registered there (R66), and what was last written
there is what reads return (R66, R223). D15 excludes only the ROM windows. DEDUCED (log entry 18), for the two
latches: a latch there would be zeroed by a read of another address. -/
def Config.addressesOutsideInertRange (cfg : Config) : Bool :=
  !inInertRange cfg.statusAddr && !inInertRange cfg.latchA && !inInertRange cfg.latchB

/-- The parameter records the spec allows. -/
def Config.wf (cfg : Config) : Bool :=
  cfg.handlersDistinct && cfg.handlersInReference && cfg.sourceOpcodesImplemented &&
  cfg.costsPositive && cfg.addressesDistinct && cfg.addressesOutsideRom && cfg.addressesOutsideInertRange

/-- An instruction is well-formed for a machine iff the machine implements its opcode (R89). -/
def Instr.wf (cfg : Config) (i : Instr) : Bool := (cfg.handler i.opcode).isSome

end Sys2Proof
end

