-- ==== Sys2Proof/Safety.lean ====
section
/-! DEFINITION. What a well-formed machine state is, and what a safe run is, in the terms the statements use. -/

namespace Sys2Proof.Machine

/-- The machine invariant: memory in its canonical form; bit 5 of P is 1 and bit 4 is 0 (R27, R28); the registry
holds exactly the status observer at STATUS_ADDR (R36); the parameters are ones the spec allows (R10), so
the observer and the latches lie outside the inert range (R66). -/
structure State.Inv (s : State) : Prop where
  memory   : s.mem.wf = true
  bit5     : s.p.getLsbD 5 = true
  bit4     : s.p.getLsbD 4 = false
  registry : s.registry = [(s.cfg.statusAddr, .status)]
  cfg      : s.cfg.wf = true

/-- A step is safe if it executes an instruction: it answers a next state, and nothing is halted in it. -/
def SafeStep (s : State) : Prop := ∃ t, step s = .next t ∧ t.halted = none

/-- A run of `k` steps is safe if each of them is. -/
def SafeRun : Nat → State → Prop
  | 0, _ => True
  | k + 1, s => ∃ t, step s = .next t ∧ t.halted = none ∧ SafeRun k t

end Sys2Proof.Machine
end

