-- ==== Sys2Proof/Certificates/Slice0/Obligations.lean ====
section
/-! DEFINITION. The statements for the provers. The first part gives the words they are written in; each
`Obligations.<Name>` then names the rule of spec/ it formalises. Words that begin with a mode's name
(`ImmReads`, `ZpStores`, …) say of one row of R88 that its bytes decode and encode as the instruction, and what
next state its meaning ANSWERS, by one equation that fixes every field of the state: what the equation does not
change is unchanged. -/

namespace Sys2Proof.Statements

open Sys2Proof Sys2Proof.Machine

/-- The bits listed have the values listed, and every other bit of the status byte is as it was. -/
def BitsBecome (p p' : Byte) (ws : List (Nat × Bool)) : Prop :=
  (∀ w ∈ ws, p'.getLsbD w.1 = w.2) ∧ ∀ k, k ∉ ws.map (·.1) → p'.getLsbD k = p.getLsbD k

/-- Z (bit 1) and N (bit 7) of a result (R26, R111). -/
def zn (v : Byte) : List (Nat × Bool) := [(1, decide (v.toNat = 0)), (7, decide (128 ≤ v.toNat))]

/-- The carry bit of a status byte as a number (R26, R113). -/
def carryOf (p : Byte) : Nat := if p.getLsbD 0 then 1 else 0

/-- What address `b` holds after a public read of `ea` (R51, R62, R221): as before, unless `ea` has the status
observer, which zeroes the two latches and clears bit 7 of the status byte. -/
def byteAfterRead (s : State) (ea b : Word) : Byte :=
  if observerAt ea s.registry = some .status then
    if b = s.cfg.latchA ∨ b = s.cfg.latchB then 0
    else if b = s.cfg.statusAddr then rawRead b s &&& 0x7F
    else rawRead b s
  else rawRead b s

/-- `t` is `s` after a public read of `ea`: no field but memory differs, and memory as `byteAfterRead` says. -/
def AfterRead (s : State) (ea : Word) (t : State) : Prop :=
  t = { s with mem := t.mem } ∧ ∀ b : Word, rawRead b t = byteAfterRead s ea b

/-- `m` is the memory of `s` with the byte `v` stored at `ea` and no other byte changed. -/
def StoredAt (s : State) (ea : Word) (v : Byte) (m : Memory) : Prop :=
  ∀ b : Word, m.read b.toNat = if b = ea then v else rawRead b s

/-- An encoding of R81 and R88: the bytes decode to the instruction, and it encodes as the bytes. -/
def RowIs (i : Instr) (bytes : List Byte) : Prop := decode bytes = .ok (i, []) ∧ encode i = bytes

/-- The absolute operand: the byte at the lower address is the low byte (R58, R107). -/
def littleEndian (l h : Byte) : Word := BitVec.ofNat 16 (256 * h.toNat + l.toNat)

/-- The zero-page operand (R106). -/
def zeroPage (z : Byte) : Word := BitVec.ofNat 16 z.toNat

/-- The absolute-indexed operand (R108). -/
def indexedX (base : Word) (s : State) : Word := BitVec.ofNat 16 (base.toNat + s.x.toNat)

/-- The page penalty (R118). -/
def pageExtra (op : Byte) (base : Word) (s : State) : Nat :=
  if op ∈ s.cfg.pagePenalty ∧ base.toNat / 256 ≠ (indexedX base s).toNat / 256 then 1 else 0

/-! ### Reading forms: `R v s1 t` relates the operand byte `v`, the state `s1` after it was read, and `t` -/

def ImmReads (op : Byte) (mk : Byte → Instr) (R : Byte → State → State → Prop) : Prop :=
  ∀ (s : State) (v : Byte), RowIs (mk v) [op, v] ∧ ∃ t, R v s t ∧ exec (mk v) s = .next t

/-- The memory operand at `ea` is read once, publicly, before the rest of the effect (R110). -/
def ReadsAt (i : Instr) (s : State) (ea : Word) (extra : Nat) (R : Byte → State → State → Prop) : Prop :=
  ∃ s1 t, AfterRead { s with cycles := s.cycles + extra } ea s1 ∧ R (rawRead ea s) s1 t ∧ exec i s = .next t

def ZpReads (op : Byte) (mk : Byte → Instr) (R : Byte → State → State → Prop) : Prop :=
  ∀ (s : State) (z : Byte), RowIs (mk z) [op, z] ∧ ReadsAt (mk z) s (zeroPage z) 0 R

def AbsReads (op : Byte) (mk : Word → Instr) (R : Byte → State → State → Prop) : Prop :=
  ∀ (s : State) (l h : Byte), RowIs (mk (littleEndian l h)) [op, l, h] ∧
    ReadsAt (mk (littleEndian l h)) s (littleEndian l h) 0 R

def AbsXReads (op : Byte) (mk : Word → Instr) (R : Byte → State → State → Prop) : Prop :=
  ∀ (s : State) (l h : Byte), RowIs (mk (littleEndian l h)) [op, l, h] ∧
    ReadsAt (mk (littleEndian l h)) s (indexedX (littleEndian l h) s) (pageExtra op (littleEndian l h) s) R

/-! ### Storing forms: `src s` is the register stored -/

def StoresAt (i : Instr) (s : State) (ea : Word) (extra : Nat) (v : Byte) : Prop :=
  ∃ m, StoredAt s ea v m ∧ exec i s = .next { s with mem := m, cycles := s.cycles + extra }

def ZpStores (op : Byte) (mk : Byte → Instr) (src : State → Byte) : Prop :=
  ∀ (s : State) (z : Byte), RowIs (mk z) [op, z] ∧ StoresAt (mk z) s (zeroPage z) 0 (src s)

def AbsStores (op : Byte) (mk : Word → Instr) (src : State → Byte) : Prop :=
  ∀ (s : State) (l h : Byte), RowIs (mk (littleEndian l h)) [op, l, h] ∧
    StoresAt (mk (littleEndian l h)) s (littleEndian l h) 0 (src s)

def AbsXStores (op : Byte) (mk : Word → Instr) (src : State → Byte) : Prop :=
  ∀ (s : State) (l h : Byte), RowIs (mk (littleEndian l h)) [op, l, h] ∧
    StoresAt (mk (littleEndian l h)) s (indexedX (littleEndian l h) s) (pageExtra op (littleEndian l h) s) (src s)

/-! ### Read-modify-write forms: `f v p` is the result and the bits of P it writes -/

/-- One public read of `ea`, with its observer, then the result stored there (R71, R119, R121). -/
def ModifiesAt (i : Instr) (s : State) (ea : Word) (extra : Nat)
    (f : Byte → Byte → Byte × List (Nat × Bool)) : Prop :=
  ∃ m p', BitsBecome s.p p' (f (rawRead ea s) s.p).2 ∧
    (∀ b : Word, m.read b.toNat = if b = ea then (f (rawRead ea s) s.p).1 else byteAfterRead s ea b) ∧
    exec i s = .next { s with mem := m, p := p', cycles := s.cycles + extra }

def AccModifies (op : Byte) (i : Instr) (f : Byte → Byte → Byte × List (Nat × Bool)) : Prop :=
  ∀ s : State, RowIs i [op] ∧
    ∃ p', BitsBecome s.p p' (f s.a s.p).2 ∧ exec i s = .next { s with a := (f s.a s.p).1, p := p' }

def ZpModifies (op : Byte) (mk : Byte → Instr) (f : Byte → Byte → Byte × List (Nat × Bool)) : Prop :=
  ∀ (s : State) (z : Byte), RowIs (mk z) [op, z] ∧ ModifiesAt (mk z) s (zeroPage z) 0 f

def AbsModifies (op : Byte) (mk : Word → Instr) (f : Byte → Byte → Byte × List (Nat × Bool)) : Prop :=
  ∀ (s : State) (l h : Byte), RowIs (mk (littleEndian l h)) [op, l, h] ∧
    ModifiesAt (mk (littleEndian l h)) s (littleEndian l h) 0 f

def AbsXModifies (op : Byte) (mk : Word → Instr) (f : Byte → Byte → Byte × List (Nat × Bool)) : Prop :=
  ∀ (s : State) (l h : Byte), RowIs (mk (littleEndian l h)) [op, l, h] ∧
    ModifiesAt (mk (littleEndian l h)) s (indexedX (littleEndian l h) s) (pageExtra op (littleEndian l h) s) f

/-! ### Implied forms -/

/-- A register form that writes bits of P: `upd s p'` is the next state with the new status byte `p'`. -/
def ImpliedSets (op : Byte) (i : Instr) (ws : State → List (Nat × Bool)) (upd : State → Byte → State) : Prop :=
  ∀ s : State, RowIs i [op] ∧ ∃ p', BitsBecome s.p p' (ws s) ∧ exec i s = .next (upd s p')

/-- A conditional branch on bit `k` of P being `want` (R182): not taken, nothing but what the fetch did; taken,
PC is the target and one cycle is added, two if target and next instruction lie on different pages. -/
def BranchesOn (op : Byte) (mk : Byte → Instr) (k : Nat) (want : Bool) : Prop :=
  ∀ (s : State) (d : Byte), RowIs (mk d) [op, d] ∧
    (s.p.getLsbD k ≠ want → exec (mk d) s = .next s) ∧
    (s.p.getLsbD k = want →
      exec (mk d) s = .next { s with
        pc := BitVec.ofInt 16 (s.pc.toNat + d.toInt)
        cycles := s.cycles +
          if (BitVec.ofInt 16 (s.pc.toNat + d.toInt)).toNat / 256 = s.pc.toNat / 256 then 1 else 2 })

/-- The stack address of a stack pointer (R24). -/
def stackAt (sp : Byte) : Word := BitVec.ofNat 16 (256 + sp.toNat)

/-! ### What the operations compute -/

/-- A + m + carry in, with the carry out and the sign rule for V (R113). -/
def sumBits (a m : Byte) (c : Nat) : Byte × List (Nat × Bool) :=
  let r := BitVec.ofNat 8 (a.toNat + m.toNat + c)
  (r, (0, decide (255 < a.toNat + m.toNat + c)) :: (6, decide (a.msb = m.msb ∧ r.msb ≠ a.msb)) :: zn r)

/-- A compare's bits (R112). -/
def compareBits (r m : Byte) : List (Nat × Bool) :=
  (0, decide (m.toNat ≤ r.toNat)) :: zn (BitVec.ofInt 8 ((r.toNat : Int) - m.toNat))

/-- ASL, LSR, ROL, ROR (R153 to R156), INC, DEC (R157, R158): the result and the bits of P written. -/
def aslBits (v _p : Byte) : Byte × List (Nat × Bool) :=
  (BitVec.ofNat 8 (2 * v.toNat), (0, v.getLsbD 7) :: zn (BitVec.ofNat 8 (2 * v.toNat)))
def lsrBits (v _p : Byte) : Byte × List (Nat × Bool) :=
  (BitVec.ofNat 8 (v.toNat / 2), (0, v.getLsbD 0) :: zn (BitVec.ofNat 8 (v.toNat / 2)))
def rolBits (v p : Byte) : Byte × List (Nat × Bool) :=
  (BitVec.ofNat 8 (2 * v.toNat + carryOf p), (0, v.getLsbD 7) :: zn (BitVec.ofNat 8 (2 * v.toNat + carryOf p)))
def rorBits (v p : Byte) : Byte × List (Nat × Bool) :=
  (BitVec.ofNat 8 (v.toNat / 2 + 128 * carryOf p),
    (0, v.getLsbD 0) :: zn (BitVec.ofNat 8 (v.toNat / 2 + 128 * carryOf p)))
def incBits (v _p : Byte) : Byte × List (Nat × Bool) :=
  (BitVec.ofNat 8 (v.toNat + 1), zn (BitVec.ofNat 8 (v.toNat + 1)))
def decBits (v _p : Byte) : Byte × List (Nat × Bool) :=
  (BitVec.ofInt 8 ((v.toNat : Int) - 1), zn (BitVec.ofInt 8 ((v.toNat : Int) - 1)))

/-- Effects of the reading instructions, as `R` of a reading form. -/
def LoadsA (v : Byte) (s t : State) : Prop := ∃ p', BitsBecome s.p p' (zn v) ∧ t = { s with a := v, p := p' }
def LoadsX (v : Byte) (s t : State) : Prop := ∃ p', BitsBecome s.p p' (zn v) ∧ t = { s with x := v, p := p' }
def LoadsY (v : Byte) (s t : State) : Prop := ∃ p', BitsBecome s.p p' (zn v) ∧ t = { s with y := v, p := p' }
def AddsA (v : Byte) (s t : State) : Prop :=
  ∃ p', BitsBecome s.p p' (sumBits s.a v (carryOf s.p)).2 ∧
    t = { s with a := (sumBits s.a v (carryOf s.p)).1, p := p' }
def SubtractsA (v : Byte) (s t : State) : Prop := AddsA (BitVec.ofNat 8 (255 - v.toNat)) s t
def ComparesA (v : Byte) (s t : State) : Prop :=
  ∃ p', BitsBecome s.p p' (compareBits s.a v) ∧ t = { s with p := p' }
def ComparesX (v : Byte) (s t : State) : Prop :=
  ∃ p', BitsBecome s.p p' (compareBits s.x v) ∧ t = { s with p := p' }
def ComparesY (v : Byte) (s t : State) : Prop :=
  ∃ p', BitsBecome s.p p' (compareBits s.y v) ∧ t = { s with p := p' }
def TestsBits (v : Byte) (s t : State) : Prop :=
  ∃ p', BitsBecome s.p p' [(1, decide (s.a &&& v = 0)), (7, v.getLsbD 7), (6, v.getLsbD 6)] ∧ t = { s with p := p' }
def CombinesA (f : Byte → Byte → Byte) (v : Byte) (s t : State) : Prop :=
  ∃ p', BitsBecome s.p p' (zn (f s.a v)) ∧ t = { s with a := f s.a v, p := p' }

/-! ### Which instructions write what (the tables of R21 to R24, R26 and R119) -/

def writesA : Instr → Bool
  | .ldaImm _ | .ldaZp _ | .ldaAbs _ | .ldaAbsX _ | .pla | .txa | .tya
  | .adcImm _ | .adcZp _ | .adcAbs _ | .adcAbsX _ | .sbcImm _ | .sbcZp _ | .sbcAbs _ | .sbcAbsX _
  | .andImm _ | .andZp _ | .andAbs _ | .andAbsX _ | .oraImm _ | .oraZp _ | .oraAbs _ | .oraAbsX _
  | .eorImm _ | .eorZp _ | .eorAbs _ | .eorAbsX _ | .aslAcc | .lsrAcc | .rolAcc | .rorAcc => true
  | _ => false

def writesX : Instr → Bool
  | .ldxImm _ | .ldxZp _ | .ldxAbs _ | .tax | .tsx | .inx | .dex => true
  | _ => false

def writesY : Instr → Bool
  | .ldyImm _ | .ldyZp _ | .ldyAbs _ | .ldyAbsX _ | .tay | .iny | .dey => true
  | _ => false

def writesSP : Instr → Bool
  | .jsr _ | .rts | .pha | .pla | .php | .plp | .txs => true
  | _ => false

/-- Stores, read-modify-writes on memory, pushes (R119). -/
def storesToMemory : Instr → Bool
  | .staZp _ | .staAbs _ | .staAbsX _ | .stxZp _ | .stxAbs _ | .styZp _ | .styAbs _
  | .aslZp _ | .aslAbs _ | .aslAbsX _ | .lsrZp _ | .lsrAbs _ | .lsrAbsX _
  | .rolZp _ | .rolAbs _ | .rolAbsX _ | .rorZp _ | .rorAbs _ | .rorAbsX _
  | .incZp _ | .incAbs _ | .incAbsX _ | .decZp _ | .decAbs _ | .decAbsX _
  | .pha | .php | .jsr _ => true
  | _ => false

/-- Stores, jumps, branches, pushes, TXS, NOP and the instructions on one flag: nothing yields Z or N. -/
def yieldsNoResult : Instr → Bool
  | .staZp _ | .staAbs _ | .staAbsX _ | .stxZp _ | .stxAbs _ | .styZp _ | .styAbs _
  | .txs | .pha | .php | .jsr _ | .rts | .jmp _
  | .bpl _ | .bmi _ | .bvc _ | .bvs _ | .bcc _ | .bcs _ | .bne _ | .beq _
  | .clc | .sec | .cli | .sei | .clv | .cld | .sed | .nop => true
  | _ => false

def writesC : Instr → Bool
  | .adcImm _ | .adcZp _ | .adcAbs _ | .adcAbsX _ | .sbcImm _ | .sbcZp _ | .sbcAbs _ | .sbcAbsX _
  | .cmpImm _ | .cmpZp _ | .cmpAbs _ | .cmpAbsX _ | .cpxImm _ | .cpxZp _ | .cpxAbs _
  | .cpyImm _ | .cpyZp _ | .cpyAbs _
  | .aslAcc | .aslZp _ | .aslAbs _ | .aslAbsX _ | .lsrAcc | .lsrZp _ | .lsrAbs _ | .lsrAbsX _
  | .rolAcc | .rolZp _ | .rolAbs _ | .rolAbsX _ | .rorAcc | .rorZp _ | .rorAbs _ | .rorAbsX _
  | .clc | .sec | .plp => true
  | _ => false

def writesI : Instr → Bool
  | .cli | .sei | .plp => true
  | _ => false

def writesD : Instr → Bool
  | .cld | .sed | .plp => true
  | _ => false

def writesV : Instr → Bool
  | .adcImm _ | .adcZp _ | .adcAbs _ | .adcAbsX _ | .sbcImm _ | .sbcZp _ | .sbcAbs _ | .sbcAbsX _
  | .bitZp _ | .bitAbs _ | .clv | .plp => true
  | _ => false

/-- The default base costs (93_implementation_defined.md G2). -/
def defaultCost : Instr → Nat
  | .ldaZp _ | .ldxZp _ | .ldyZp _ | .staZp _ | .stxZp _ | .styZp _ | .adcZp _ | .sbcZp _ | .cmpZp _ | .cpxZp _
  | .cpyZp _ | .bitZp _ | .andZp _ | .oraZp _ | .eorZp _ | .pha | .php | .jmp _ => 3
  | .ldaAbs _ | .ldxAbs _ | .ldyAbs _ | .staAbs _ | .stxAbs _ | .styAbs _ | .adcAbs _ | .sbcAbs _ | .cmpAbs _
  | .cpxAbs _ | .cpyAbs _ | .bitAbs _ | .andAbs _ | .oraAbs _ | .eorAbs _
  | .ldaAbsX _ | .ldyAbsX _ | .adcAbsX _ | .sbcAbsX _ | .cmpAbsX _ | .andAbsX _ | .oraAbsX _ | .eorAbsX _
  | .pla | .plp => 4
  | .staAbsX _ | .aslZp _ | .lsrZp _ | .rolZp _ | .rorZp _ | .incZp _ | .decZp _ => 5
  | .aslAbs _ | .lsrAbs _ | .rolAbs _ | .rorAbs _ | .incAbs _ | .decAbs _ | .jsr _ | .rts => 6
  | .aslAbsX _ | .lsrAbsX _ | .rolAbsX _ | .rorAbsX _ | .incAbsX _ | .decAbsX _ => 7
  | _ => 2

/-- The 44 opcode bytes R90 lists by their other addressing mode. -/
def listedOtherModes : List Byte :=
  [0x01, 0x11, 0x15, 0x16, 0x19, 0x21, 0x31, 0x35, 0x36, 0x39, 0x41, 0x51, 0x55, 0x56, 0x59] ++
  [0x61, 0x6C, 0x71, 0x75, 0x76, 0x79, 0x81, 0x91, 0x94, 0x95, 0x96, 0x99, 0xA1, 0xB1, 0xB4] ++
  [0xB5, 0xB6, 0xB9, 0xBE, 0xC1, 0xD1, 0xD5, 0xD6, 0xD9, 0xE1, 0xF1, 0xF5, 0xF6, 0xF9]

/-- The 105 opcode bytes R90 lists as undocumented. -/
def listedUndocumented : List Byte :=
  [0x02, 0x03, 0x04, 0x07, 0x0B, 0x0C, 0x0F, 0x12, 0x13, 0x14, 0x17, 0x1A, 0x1B, 0x1C, 0x1F] ++
  [0x22, 0x23, 0x27, 0x2B, 0x2F, 0x32, 0x33, 0x34, 0x37, 0x3A, 0x3B, 0x3C, 0x3F, 0x42, 0x43] ++
  [0x44, 0x47, 0x4B, 0x4F, 0x52, 0x53, 0x54, 0x57, 0x5A, 0x5B, 0x5C, 0x5F, 0x62, 0x63, 0x64] ++
  [0x67, 0x6B, 0x6F, 0x72, 0x73, 0x74, 0x77, 0x7A, 0x7B, 0x7C, 0x7F, 0x80, 0x82, 0x83, 0x87] ++
  [0x89, 0x8B, 0x8F, 0x92, 0x93, 0x97, 0x9B, 0x9C, 0x9E, 0x9F, 0xA3, 0xA7, 0xAB, 0xAF, 0xB2] ++
  [0xB3, 0xB7, 0xBB, 0xBF, 0xC2, 0xC3, 0xC7, 0xCB, 0xCF, 0xD2, 0xD3, 0xD4, 0xD7, 0xDA, 0xDB] ++
  [0xDC, 0xDF, 0xE2, 0xE3, 0xE7, 0xEB, 0xEF, 0xF2, 0xF3, 0xF4, 0xF7, 0xFA, 0xFB, 0xFC, 0xFF]

/-- The values R240 gives the six registers. -/
def afterCpuReset (s : State) : State :=
  { s with pc := 0x8000, sp := 0xFF, a := 0, x := 0, y := 0, p := 0x20 }

end Sys2Proof.Statements

open Sys2Proof Sys2Proof.Machine Sys2Proof.Statements

/-! ## Reset and launch -/

/-- R240: CPU reset writes the six registers and nothing else (RESET_PC and P are decisions D8, D9). -/
def Obligations.CpuResetWritesOnlyTheRegisters : Prop := ∀ s : State, cpuReset s = afterCpuReset s

/-- The state after reset (R40): the registers, the timing engine, the registry and the halt record as the spec
gives them. The memory (log entry 7), `cycles` (log entry 8) and the parameters (log entries 2 and 4 to 6) are the
model's choice there. It is also the construction of R242 over an empty memory. -/
def Obligations.ResetStateIsTheConstructionOverEmptyMemory : Prop :=
  State.reset = afterCpuReset State.reset ∧ State.reset.counter.val = 0 ∧ State.reset.vblank = false ∧
  State.reset.halted = none ∧ State.reset.registry = [(State.reset.cfg.statusAddr, .status)] ∧
  (∀ b : Word, rawRead b State.reset = 0) ∧ State.reset = construct defaultConfig []

/-- R246, R247, R242: a launch copies one bank to both ROM windows, or two banks to one each, leaves every other
byte as InitMem has it, and gives the constructed and reset machine over that memory. -/
def Obligations.LaunchCopiesTheProgramBanks : Prop :=
  ∀ (cfg : Config) (initMem : Memory) (img : Image) (r : Launched), launch cfg initMem img = .ok r →
    r.state = construct cfg r.state.mem ∧
    (∀ k, k < 16384 → img[16 + k]? = some (r.state.mem.read (0x8000 + k))) ∧
    (∀ k, k < 16384 →
      img[(if img[4]? = some 1 then 16 else 16400) + k]? = some (r.state.mem.read (0xC000 + k))) ∧
    (∀ b, b < 0x8000 → r.state.mem.read b = initMem.read b)

/-- R249 and R246: no launch for a wrong magic or a bank count other than 1 or 2. That a file whose length is not
the header's and the banks' is refused too is the model's reading of "inconsistent" (log entry 15). -/
def Obligations.LaunchRefusesMalformedImages : Prop :=
  ∀ (cfg : Config) (initMem : Memory) (img : Image),
    (img.take 3 ≠ [0x4E, 0x45, 0x53] → launch cfg initMem img = .error .malformedImage) ∧
    (∀ n : Byte, img.take 3 = [0x4E, 0x45, 0x53] → 16 ≤ img.length → img[4]? = some n → n ≠ 1 → n ≠ 2 →
      launch cfg initMem img = .error (.bankCountRefused n.toNat)) ∧
    (∀ n c : Byte, img.take 3 = [0x4E, 0x45, 0x53] → img[4]? = some n → img[5]? = some c → n = 1 ∨ n = 2 →
      img.length ≠ 16 + 16384 * n.toNat + 8192 * c.toNat → launch cfg initMem img = .error .malformedImage)

/-! ## The bus -/

/-- R51, R221: a public read returns the byte as it stood; then the observer of the address, if any, runs. -/
def Obligations.PublicReadReturnsTheByteThenFires : Prop :=
  ∀ (s : State) (ea : Word), (memRead ea s).1 = rawRead ea s ∧ AfterRead s ea (memRead ea s).2

/-- R52, R222: a public write stores the byte; the status observer then does nothing. R54: the raw write stores the
byte and fires no observer. -/
def Obligations.WritesStoreTheByteAlone : Prop :=
  ∀ (s : State) (ea : Word) (v : Byte),
    (∃ m, StoredAt s ea v m ∧ memWrite ea v s = { s with mem := m }) ∧
    (∃ m, StoredAt s ea v m ∧ rawWrite ea v s = { s with mem := m })

/-- E7 (95_test_vectors.md) and R64: at every address, what a public write stored is what the next public read
returns. R63: a second read of STATUS_ADDR returns the same byte with bit 7 clear. R66: in a state of the invariant
a read in the inert range 0x4000 to 0x4017 has no side effect, and no public read anywhere changes a byte there. -/
def Obligations.WriteThenReadReturnsTheByte : Prop :=
  ∀ (s : State) (ea : Word) (v : Byte), (memRead ea (memWrite ea v s)).1 = v ∧
    (s.Inv → (memRead s.cfg.statusAddr (memRead s.cfg.statusAddr s).2).1 = rawRead s.cfg.statusAddr s &&& 0x7F) ∧
    (s.Inv → 0x4000 ≤ ea.toNat → ea.toNat ≤ 0x4017 →
      memRead ea s = (rawRead ea s, s) ∧ ∀ b : Word, rawRead ea (memRead b s).2 = rawRead ea s)

/-- R53: registering replaces the observer at the address and leaves every other address. -/
def Obligations.RegisterObserverReplacesAtItsAddress : Prop :=
  ∀ (es : List (Word × Observer)) (ea b : Word) (o : Observer),
    observerAt b (registerObserver ea o es) = if b = ea then some o else observerAt b es

/-- The canonical form determines the memory: two canonical memories that read alike at every address are the
same list. (Log entry 7: what an unlisted address reads as is the model's choice.) -/
def Obligations.CanonicalMemoriesWithEqualReadsAreEqual : Prop :=
  ∀ m n : Memory, m.wf = true → n.wf = true → (∀ b : Word, m.read b.toNat = n.read b.toNat) → m = n

/-! ## Fetch and step -/

/-- R101: Fetch8 is one public read at PC, and PC advances by 1 modulo 0x10000. -/
def Obligations.FetchReadsAtPcAndAdvances : Prop :=
  ∀ s : State, (fetch8 s).1 = rawRead s.pc s ∧
    ∃ s1, AfterRead s s.pc s1 ∧ (fetch8 s).2 = { s1 with pc := BitVec.ofNat 16 (s.pc.toNat + 1) }

/-- R80, R101, R57: where no observer is registered at the addresses, the bytes fetched are the bytes at PC, PC + 1
and so on modulo 0x10000, and nothing but PC changes. -/
def Obligations.FetchedBytesAreThoseAtPc : Prop :=
  ∀ (n : Nat) (s : State),
    (∀ k, k < n → observerAt (BitVec.ofNat 16 (s.pc.toNat + k)) s.registry = none) →
    fetchBytes n s = ((List.range n).map fun k => rawRead (BitVec.ofNat 16 (s.pc.toNat + k)) s,
      { s with pc := BitVec.ofNat 16 (s.pc.toNat + n) })

/-- R100, R225: where nothing is halted and the bytes fetched from PC decode to an instruction the machine
implements, a step is that instruction's exec, in the state after the fetch with `cycles` its base cost, followed
by three timing steps for each cycle. -/
def Obligations.StepRunsTheDecodedInstruction : Prop :=
  ∀ (s t : State) (bytes : List Byte) (i : Instr) (cost : Nat),
    s.halted = none → decode bytes = .ok (i, []) → fetchBytes bytes.length s = (bytes, t) →
    s.cfg.handler i.opcode = some cost →
    ∃ u, exec i { t with cycles := cost } = .next u ∧ step s = .next (timingSteps (3 * u.cycles) u)

/-- R206, R226 (D13, D19): an opcode outside ImplementedOpcodes halts the machine. The record holds the opcode and
the six registers after the opcode's fetch; the step returns 0 cycles, reads no operand byte and runs no timing
step, and changes nothing but PC and what the observer of the opcode's read changes. -/
def Obligations.UnsupportedOpcodeHalts : Prop :=
  ∀ s : State, s.halted = none → s.cfg.handler (rawRead s.pc s) = none →
    ∃ s1, AfterRead s s.pc s1 ∧
      step s = .next { s1 with
        pc := s.pc + 1
        cycles := 0
        halted := some (.unsupportedOpcode (rawRead s.pc s) ⟨s.pc + 1, s.sp, s.a, s.x, s.y, s.p⟩) }

/-- R39, R214: no step runs from a halted state. -/
def Obligations.HaltedMachineRunsNoStep : Prop :=
  ∀ (s : State) (h : Halt), s.halted = some h → step s = .fault (.alreadyHalted h)

/-- R205, R89, R209: from a state that is not halted every step answers a next state, and that state is halted
exactly if the opcode at PC is not implemented. -/
def Obligations.StepHaltsExactlyOnUnimplementedOpcodes : Prop :=
  ∀ s : State, s.halted = none → s.cfg.wf = true →
    ∃ t, step s = .next t ∧ (t.halted = none ↔ (s.cfg.handler (rawRead s.pc s)).isSome = true)

/-- R209: no instruction raises an exception once dispatched, in any state. -/
def Obligations.NoInstructionStopsOnceDispatched : Prop :=
  ∀ (i : Instr) (s : State), ∃ t, exec i s = .next t ∧ t.halted = s.halted

/-- R225, R216: a step that executes an instruction advances the counter by three for each cycle returned,
modulo 89,342. -/
def Obligations.StepAdvancesTheCounterThreePerCycle : Prop :=
  ∀ s t : State, step s = .next t → t.halted = none →
    t.counter.val = (s.counter.val + 3 * t.cycles) % 89342

/-- The default parameters, which the spec leaves OPEN (log entries 4 and 5: the default column of R88, D10, and
D11): the base costs, and that with them every instruction returns 2 to 7 cycles. -/
def Obligations.StepCostsTwoToSevenCyclesByDefault : Prop :=
  (∀ i : Instr, defaultConfig.handler i.opcode = some (defaultCost i)) ∧ defaultConfig.pagePenalty = [0xBD] ∧
  ∀ s t : State, s.cfg.handlers = defaultConfig.handlers → s.cfg.pagePenalty = [0xBD] →
    step s = .next t → t.halted = none → 2 ≤ t.cycles ∧ t.cycles ≤ 7

/-! ## The timing engine -/

/-- R216 to R220: one timing step increments the counter, wrapping 89,342 to 0; scanline 20 clears vblank and bit 7
of the status byte; scanline 261 sets both; every other scanline (there is none above 261) changes only the
counter. -/
def Obligations.TimingStepActsOnTheScanlineBand : Prop :=
  ∀ (s : State) (c : Fin frameDots), c.val = (s.counter.val + 1) % 89342 →
    c.val / 341 ≤ 261 ∧
    (c.val / 341 = 20 → ∃ m, StoredAt s s.cfg.statusAddr (rawRead s.cfg.statusAddr s &&& 0x7F) m ∧
      timingStep s = { s with counter := c, vblank := false, mem := m }) ∧
    (260 < c.val / 341 → ∃ m, StoredAt s s.cfg.statusAddr (rawRead s.cfg.statusAddr s ||| 0x80) m ∧
      timingStep s = { s with counter := c, vblank := true, mem := m }) ∧
    (c.val / 341 ≠ 20 → c.val / 341 ≤ 260 → timingStep s = { s with counter := c })

/-- The table of R224, for every number of timing steps from counter 0 with vblank false, no CPU access between:
vblank, bit 7 of the status byte, the counter, and that nothing else changes. -/
def Obligations.VblankTimelineOverAllFrames : Prop :=
  ∀ (n : Nat) (s : State), s.counter.val = 0 → s.vblank = false →
    ∃ t, timingSteps n s = t ∧
      t = { s with counter := t.counter, vblank := t.vblank, mem := t.mem } ∧
      t.counter.val = n % 89342 ∧
      (t.vblank = true ↔ 89001 ≤ n ∧ (n % 89342 ≤ 6819 ∨ 89001 ≤ n % 89342)) ∧
      ((rawRead s.cfg.statusAddr t).getLsbD 7 =
        if n < 6820 then (rawRead s.cfg.statusAddr s).getLsbD 7
        else decide (n % 89342 ≤ 6819 ∨ 89001 ≤ n % 89342)) ∧
      (∀ k, k < 7 → (rawRead s.cfg.statusAddr t).getLsbD k = (rawRead s.cfg.statusAddr s).getLsbD k) ∧
      (∀ b : Word, b ≠ s.cfg.statusAddr → rawRead b t = rawRead b s)

/-! ## Invariants and whole-machine rules -/

/-- Every step keeps the machine invariant: memory canonical, P's bits 5 and 4 at 1 and 0 (R27, R28), the registry
the one entry of R36, the parameters allowed (R10), with no observer and no latch in the inert range (R66). -/
def Obligations.StepKeepsTheMachineInvariant : Prop := ∀ s t : State, s.Inv → step s = .next t → t.Inv

/-- The invariant holds right after reset, and in every machine constructed with allowed parameters over a canonical
memory (R242). -/
def Obligations.ResetSatisfiesTheMachineInvariant : Prop :=
  State.reset.Inv ∧ ∀ (cfg : Config) (m : Memory), cfg.wf = true → m.wf = true → (construct cfg m).Inv

/-- R36: no step changes the observer registry, nor the parameters (log entry 1). -/
def Obligations.StepChangesNeitherRegistryNorParameters : Prop :=
  ∀ s t : State, step s = .next t → t.registry = s.registry ∧ t.cfg = s.cfg

/-- R21 to R24: A, X, Y and SP are written by the instructions those rules list and by no other; and no
instruction touches the timing engine, the registry, the parameters or the halt record. -/
def Obligations.RegistersChangeOnlyByTheirWriters : Prop :=
  ∀ (i : Instr) (s t : State), exec i s = .next t →
    (writesA i = false → t.a = s.a) ∧ (writesX i = false → t.x = s.x) ∧
    (writesY i = false → t.y = s.y) ∧ (writesSP i = false → t.sp = s.sp) ∧
    t.counter = s.counter ∧ t.vblank = s.vblank ∧ t.halted = s.halted ∧ t.registry = s.registry ∧ t.cfg = s.cfg

/-- The "written by" column of R26: each flag changes only by the instructions that column lists, and bits 4 and 5
only by PLP, which forces them (R27, R28). -/
def Obligations.FlagsChangeOnlyByTheirWriters : Prop :=
  ∀ (i : Instr) (s t : State), exec i s = .next t →
    (writesC i = false → t.p.getLsbD 0 = s.p.getLsbD 0) ∧
    (yieldsNoResult i = true → t.p.getLsbD 1 = s.p.getLsbD 1 ∧ t.p.getLsbD 7 = s.p.getLsbD 7) ∧
    (writesI i = false → t.p.getLsbD 2 = s.p.getLsbD 2) ∧
    (writesD i = false → t.p.getLsbD 3 = s.p.getLsbD 3) ∧
    (writesV i = false → t.p.getLsbD 6 = s.p.getLsbD 6) ∧
    (i ≠ .plp → t.p.getLsbD 4 = s.p.getLsbD 4 ∧ t.p.getLsbD 5 = s.p.getLsbD 5) ∧
    (i = .plp → t.p.getLsbD 4 = false ∧ t.p.getLsbD 5 = true)

/-- R62, R119: an instruction that is no store, no read-modify-write on memory and no push leaves every byte of
memory but the three the status observer writes, and every byte where no observer is registered. -/
def Obligations.OnlyStoringInstructionsWriteMemory : Prop :=
  ∀ (i : Instr) (s t : State) (b : Word), storesToMemory i = false → exec i s = .next t →
    (b ≠ s.cfg.statusAddr ∧ b ≠ s.cfg.latchA ∧ b ≠ s.cfg.latchB) ∨ s.registry = [] →
    rawRead b t = rawRead b s

/-- R31, R32: I and D (bits 2 and 3) change the behaviour of no instruction but PHP: from two states that differ
only in those bits, the next states differ only in those bits. -/
def Obligations.InterruptAndDecimalFlagsAreInert : Prop :=
  ∀ (i : Instr) (s : State) (q : Byte), i ≠ .php → (∀ k, k ≠ 2 → k ≠ 3 → q.getLsbD k = s.p.getLsbD k) →
    ∃ t u, exec i s = .next t ∧ exec i { s with p := q } = .next u ∧
      u = { t with p := u.p } ∧ ∀ k, k ≠ 2 → k ≠ 3 → u.p.getLsbD k = t.p.getLsbD k

/-- R38, R216: a CPU step reads neither the cycle counter nor the internal vblank flag. -/
def Obligations.CpuStepNeverReadsTheTimingState : Prop :=
  ∀ (s t : State) (c : Fin frameDots) (b : Bool), cpuStep s = .next t →
    cpuStep { s with counter := c, vblank := b } = .next { t with counter := c, vblank := b }

/-! ## Encoding -/

/-- Decoding what the encoder writes gives every instruction back, with every operand, and leaves the bytes after
it (R80 to R84, R88). -/
def Obligations.DecodeInvertsEncode : Prop :=
  ∀ (i : Instr) (rest : List Byte), decode (encode i ++ rest) = .ok (i, rest)

/-- The other direction: bytes that decode to an instruction begin with its encoding, so no bit of an encoding is
dropped and no two encodings share an instruction. -/
def Obligations.DecodedBytesAreTheEncoding : Prop :=
  ∀ (bytes rest : List Byte) (i : Instr), decode bytes = .ok (i, rest) → bytes = encode i ++ rest

/-- R90: the 151 bytes that are no opcode of the reference set are rejected, each with the reason R90 lists it
under, whatever follows; no other byte is. -/
def Obligations.DecodeRejectsExactlyTheUnsupportedOpcodes : Prop :=
  ∀ (op : Byte) (bs : List Byte),
    (op ∈ [(0x00 : Byte), 0x40] → decode (op :: bs) = .error (.unsupported op .interruptInstruction)) ∧
    (op ∈ listedOtherModes → decode (op :: bs) = .error (.unsupported op .otherAddressingMode)) ∧
    (op ∈ listedUndocumented → decode (op :: bs) = .error (.unsupported op .undocumented)) ∧
    (op ∉ [(0x00 : Byte), 0x40] → op ∉ listedOtherModes → op ∉ listedUndocumented →
      ∀ why, decode (op :: bs) ≠ .error (.unsupported op why))

/-- Words written out from R81 and R88: one of each mode and family. -/
def Obligations.WordsOfTheTableDecodeAsWritten : Prop :=
  decode [0b10101001, 0x05] = .ok (.ldaImm 0x05, []) ∧
  decode [0b10001101, 0x00, 0x20] = .ok (.staAbs 0x2000, []) ∧
  decode [0b01111101, 0x34, 0x12] = .ok (.adcAbsX 0x1234, []) ∧
  decode [0b00100110, 0x10] = .ok (.rolZp 0x10, []) ∧
  decode [0b01101010] = .ok (.rorAcc, []) ∧
  decode [0b00101000] = .ok (.plp, []) ∧
  decode [0b11010000, 0xFA] = .ok (.bne 0xFA, []) ∧
  decode [0b00111000] = .ok (.sec, [])

/-- R81, R84: an instruction's length is that of its opcode's format, a function of the opcode byte alone. -/
def Obligations.LengthDependsOnTheOpcodeAlone : Prop :=
  (∀ i : Instr, (encode i).length = 1 + operandCount i.opcode ∧ (encode i).length ≤ 3) ∧
  ∀ i j : Instr, i.opcode = j.opcode → (encode i).length = (encode j).length

/-! ## Loads and stores -/

/-- R130. -/
def Obligations.LdaLoadsTheAccumulator : Prop :=
  ImmReads 0xA9 .ldaImm LoadsA ∧ ZpReads 0xA5 .ldaZp LoadsA ∧ AbsReads 0xAD .ldaAbs LoadsA ∧
  AbsXReads 0xBD .ldaAbsX LoadsA

/-- R131, R132. -/
def Obligations.LdxAndLdyLoadTheIndexRegisters : Prop :=
  ImmReads 0xA2 .ldxImm LoadsX ∧ ZpReads 0xA6 .ldxZp LoadsX ∧ AbsReads 0xAE .ldxAbs LoadsX ∧
  ImmReads 0xA0 .ldyImm LoadsY ∧ ZpReads 0xA4 .ldyZp LoadsY ∧ AbsReads 0xAC .ldyAbs LoadsY ∧
  AbsXReads 0xBC .ldyAbsX LoadsY

/-- R133 to R135. -/
def Obligations.StoresWriteTheRegisterAlone : Prop :=
  ZpStores 0x85 .staZp (·.a) ∧ AbsStores 0x8D .staAbs (·.a) ∧ AbsXStores 0x9D .staAbsX (·.a) ∧
  ZpStores 0x86 .stxZp (·.x) ∧ AbsStores 0x8E .stxAbs (·.x) ∧
  ZpStores 0x84 .styZp (·.y) ∧ AbsStores 0x8C .styAbs (·.y)

/-- R72: a byte stored at the address of the next instruction is the byte the next fetch reads. -/
def Obligations.StoredByteIsTheNextOneFetched : Prop :=
  ∀ s t : State, exec (.staAbs s.pc) s = .next t → (fetch8 t).1 = s.a

/-! ## Arithmetic, compare and bit test -/

/-- R140 with R113. -/
def Obligations.AdcAddsWithCarry : Prop :=
  ImmReads 0x69 .adcImm AddsA ∧ ZpReads 0x65 .adcZp AddsA ∧ AbsReads 0x6D .adcAbs AddsA ∧
  AbsXReads 0x7D .adcAbsX AddsA

/-- R141 with R113. -/
def Obligations.SbcAddsTheComplement : Prop :=
  ImmReads 0xE9 .sbcImm SubtractsA ∧ ZpReads 0xE5 .sbcZp SubtractsA ∧ AbsReads 0xED .sbcAbs SubtractsA ∧
  AbsXReads 0xFD .sbcAbsX SubtractsA

/-- R113's "signed overflow detection": V is set exactly if the exact signed sum leaves -128..127, and the result
and carry are the exact unsigned sum modulo 256 and whether it exceeds 255. -/
def Obligations.AdcFlagsMatchExactArithmetic : Prop :=
  ∀ (s : State) (v : Byte), ∃ t, exec (.adcImm v) s = .next t ∧
    t.a.toNat + 256 * carryOf t.p = s.a.toNat + v.toNat + carryOf s.p ∧
    (t.p.getLsbD 6 = true ↔
      s.a.toInt + v.toInt + carryOf s.p < -128 ∨ 127 < s.a.toInt + v.toInt + carryOf s.p)

/-- R141's reading "A - m - (1 - C)": C after is 1 exactly if the unsigned difference is not negative, V exactly if
the signed difference leaves -128..127. -/
def Obligations.SbcFlagsMatchExactArithmetic : Prop :=
  ∀ (s : State) (v : Byte), ∃ t, exec (.sbcImm v) s = .next t ∧
    (t.a.toNat : Int) = (s.a.toNat : Int) - v.toNat - (1 - carryOf s.p) + 256 * (1 - carryOf t.p) ∧
    (t.p.getLsbD 0 = true ↔ 0 ≤ (s.a.toNat : Int) - v.toNat - (1 - carryOf s.p)) ∧
    (t.p.getLsbD 6 = true ↔
      s.a.toInt - v.toInt - (1 - carryOf s.p) < -128 ∨ 127 < s.a.toInt - v.toInt - (1 - carryOf s.p))

/-- R142 to R144 with R112. -/
def Obligations.ComparesSetCarryZeroNegative : Prop :=
  ImmReads 0xC9 .cmpImm ComparesA ∧ ZpReads 0xC5 .cmpZp ComparesA ∧ AbsReads 0xCD .cmpAbs ComparesA ∧
  AbsXReads 0xDD .cmpAbsX ComparesA ∧
  ImmReads 0xE0 .cpxImm ComparesX ∧ ZpReads 0xE4 .cpxZp ComparesX ∧ AbsReads 0xEC .cpxAbs ComparesX ∧
  ImmReads 0xC0 .cpyImm ComparesY ∧ ZpReads 0xC4 .cpyZp ComparesY ∧ AbsReads 0xCC .cpyAbs ComparesY

/-- R145. -/
def Obligations.BitTestsMemoryAgainstA : Prop :=
  ZpReads 0x24 .bitZp TestsBits ∧ AbsReads 0x2C .bitAbs TestsBits

/-! ## Logic, shifts, rotates, increments -/

/-- R150 to R152. -/
def Obligations.LogicCombinesIntoTheAccumulator : Prop :=
  ImmReads 0x29 .andImm (CombinesA (· &&& ·)) ∧ ZpReads 0x25 .andZp (CombinesA (· &&& ·)) ∧
  AbsReads 0x2D .andAbs (CombinesA (· &&& ·)) ∧ AbsXReads 0x3D .andAbsX (CombinesA (· &&& ·)) ∧
  ImmReads 0x09 .oraImm (CombinesA (· ||| ·)) ∧ ZpReads 0x05 .oraZp (CombinesA (· ||| ·)) ∧
  AbsReads 0x0D .oraAbs (CombinesA (· ||| ·)) ∧ AbsXReads 0x1D .oraAbsX (CombinesA (· ||| ·)) ∧
  ImmReads 0x49 .eorImm (CombinesA (· ^^^ ·)) ∧ ZpReads 0x45 .eorZp (CombinesA (· ^^^ ·)) ∧
  AbsReads 0x4D .eorAbs (CombinesA (· ^^^ ·)) ∧ AbsXReads 0x5D .eorAbsX (CombinesA (· ^^^ ·))

/-- R153, R154. -/
def Obligations.ShiftsMoveTheBitIntoCarry : Prop :=
  AccModifies 0x0A .aslAcc aslBits ∧ ZpModifies 0x06 .aslZp aslBits ∧ AbsModifies 0x0E .aslAbs aslBits ∧
  AbsXModifies 0x1E .aslAbsX aslBits ∧
  AccModifies 0x4A .lsrAcc lsrBits ∧ ZpModifies 0x46 .lsrZp lsrBits ∧ AbsModifies 0x4E .lsrAbs lsrBits ∧
  AbsXModifies 0x5E .lsrAbsX lsrBits

/-- R155, R156. -/
def Obligations.RotatesGoThroughCarry : Prop :=
  AccModifies 0x2A .rolAcc rolBits ∧ ZpModifies 0x26 .rolZp rolBits ∧ AbsModifies 0x2E .rolAbs rolBits ∧
  AbsXModifies 0x3E .rolAbsX rolBits ∧
  AccModifies 0x6A .rorAcc rorBits ∧ ZpModifies 0x66 .rorZp rorBits ∧ AbsModifies 0x6E .rorAbs rorBits ∧
  AbsXModifies 0x7E .rorAbsX rorBits

/-- R157, R158. -/
def Obligations.IncAndDecModifyMemory : Prop :=
  ZpModifies 0xE6 .incZp incBits ∧ AbsModifies 0xEE .incAbs incBits ∧ AbsXModifies 0xFE .incAbsX incBits ∧
  ZpModifies 0xC6 .decZp decBits ∧ AbsModifies 0xCE .decAbs decBits ∧ AbsXModifies 0xDE .decAbsX decBits

/-- R159 to R162. -/
def Obligations.IndexRegistersStepByOne : Prop :=
  ImpliedSets 0xE8 .inx (fun s => (incBits s.x s.p).2) (fun s p' => { s with x := (incBits s.x s.p).1, p := p' }) ∧
  ImpliedSets 0xC8 .iny (fun s => (incBits s.y s.p).2) (fun s p' => { s with y := (incBits s.y s.p).1, p := p' }) ∧
  ImpliedSets 0xCA .dex (fun s => (decBits s.x s.p).2) (fun s p' => { s with x := (decBits s.x s.p).1, p := p' }) ∧
  ImpliedSets 0x88 .dey (fun s => (decBits s.y s.p).2) (fun s p' => { s with y := (decBits s.y s.p).1, p := p' })

/-! ## Transfers and stack -/

/-- R170 to R175. -/
def Obligations.TransfersCopyRegisters : Prop :=
  ImpliedSets 0xAA .tax (fun s => zn s.a) (fun s p' => { s with x := s.a, p := p' }) ∧
  ImpliedSets 0x8A .txa (fun s => zn s.x) (fun s p' => { s with a := s.x, p := p' }) ∧
  ImpliedSets 0xA8 .tay (fun s => zn s.a) (fun s p' => { s with y := s.a, p := p' }) ∧
  ImpliedSets 0x98 .tya (fun s => zn s.y) (fun s p' => { s with a := s.y, p := p' }) ∧
  ImpliedSets 0xBA .tsx (fun s => zn s.sp) (fun s p' => { s with x := s.sp, p := p' }) ∧
  ∀ s : State, RowIs .txs [0x9A] ∧ exec .txs s = .next { s with sp := s.x }

/-- R114, R115: Push stores at 0x0100 + SP and then decrements SP modulo 256; Pop increments SP and then reads
there, publicly; a push and then a pop gives the byte back and SP as it was. -/
def Obligations.PushAndPopUseTheStackPage : Prop :=
  ∀ (s : State) (v : Byte),
    (∃ m, StoredAt s (stackAt s.sp) v m ∧ push v s = { s with mem := m, sp := s.sp - 1 }) ∧
    (pop s).1 = rawRead (stackAt (s.sp + 1)) s ∧
    AfterRead { s with sp := s.sp + 1 } (stackAt (s.sp + 1)) (pop s).2 ∧
    (pop (push v s)).1 = v ∧ (pop (push v s)).2.sp = s.sp

/-- R176, R177. -/
def Obligations.PhaAndPlaMoveTheAccumulator : Prop :=
  ∀ s : State,
    RowIs .pha [0x48] ∧
    (∃ m, StoredAt s (stackAt s.sp) s.a m ∧ exec .pha s = .next { s with mem := m, sp := s.sp - 1 }) ∧
    RowIs .pla [0x68] ∧
    (∃ s1 t, AfterRead { s with sp := s.sp + 1 } (stackAt (s.sp + 1)) s1 ∧
      LoadsA (rawRead (stackAt (s.sp + 1)) s) s1 t ∧ exec .pla s = .next t)

/-- R178, R179: PHP pushes P with bits 4 and 5 set; PLP loads P with bit 4 forced to 0 and bit 5 to 1. -/
def Obligations.PhpAndPlpMoveTheStatus : Prop :=
  ∀ s : State,
    RowIs .php [0x08] ∧
    (∃ m v, StoredAt s (stackAt s.sp) v m ∧ BitsBecome s.p v [(4, true), (5, true)] ∧
      exec .php s = .next { s with mem := m, sp := s.sp - 1 }) ∧
    RowIs .plp [0x28] ∧
    (∃ s1 p', AfterRead { s with sp := s.sp + 1 } (stackAt (s.sp + 1)) s1 ∧
      BitsBecome (rawRead (stackAt (s.sp + 1)) s) p' [(4, false), (5, true)] ∧
      exec .plp s = .next { s1 with p := p' })

/-- E4: a push and then a pull restores the register and SP, for every SP; PHP then PLP restores P where P's bits 4
and 5 are as R27 and R28 hold them. -/
def Obligations.PushThenPullRestores : Prop :=
  ∀ s : State,
    (∃ t u, exec .pha s = .next t ∧ exec .pla t = .next u ∧ u.a = s.a ∧ u.sp = s.sp) ∧
    (s.p.getLsbD 4 = false → s.p.getLsbD 5 = true →
      ∃ t u, exec .php s = .next t ∧ exec .plp t = .next u ∧ u.p = s.p ∧ u.sp = s.sp)

/-! ## Branches, jumps and subroutines -/

/-- R182 to R190. -/
def Obligations.BranchesFollowTheirFlag : Prop :=
  BranchesOn 0x10 .bpl 7 false ∧ BranchesOn 0x30 .bmi 7 true ∧ BranchesOn 0x50 .bvc 6 false ∧
  BranchesOn 0x70 .bvs 6 true ∧ BranchesOn 0x90 .bcc 0 false ∧ BranchesOn 0xB0 .bcs 0 true ∧
  BranchesOn 0xD0 .bne 1 false ∧ BranchesOn 0xF0 .beq 1 true

/-- R191. -/
def Obligations.JmpSetsPc : Prop :=
  ∀ (s : State) (l h : Byte), RowIs (.jmp (littleEndian l h)) [0x4C, l, h] ∧
    exec (.jmp (littleEndian l h)) s = .next { s with pc := littleEndian l h }

/-- R192: the two bytes of PC - 1 (PC is the return address), high byte at the higher stack address, then the jump;
SP falls by 2. -/
def Obligations.JsrPushesTheReturnAddressLessOne : Prop :=
  ∀ (s : State) (l h rl rh : Byte), s.pc - 1 = littleEndian rl rh →
    RowIs (.jsr (littleEndian l h)) [0x20, l, h] ∧
    ∃ m, (∀ b : Word, m.read b.toNat =
        if b = stackAt s.sp then rh else if b = stackAt (s.sp - 1) then rl else rawRead b s) ∧
      exec (.jsr (littleEndian l h)) s = .next { s with mem := m, sp := s.sp - 2, pc := littleEndian l h }

/-- R193: two public reads of the stack, low byte first, and PC is the popped address plus 1. -/
def Obligations.RtsReturnsToThePoppedAddressPlusOne : Prop :=
  ∀ s : State, RowIs .rts [0x60] ∧
    ∃ s1 s2, AfterRead { s with sp := s.sp + 1 } (stackAt (s.sp + 1)) s1 ∧
      AfterRead { s1 with sp := s.sp + 2 } (stackAt (s.sp + 2)) s2 ∧
      exec .rts s = .next { s2 with
        pc := littleEndian (rawRead (stackAt (s.sp + 1)) s) (rawRead (stackAt (s.sp + 2)) s1) + 1 }

/-- E5: where no observer is registered in the stack page, an RTS after a JSR returns to the instruction after the
JSR with SP as before it. (An observer there could rewrite the other stacked byte between the two pops.) -/
def Obligations.JsrThenRtsReturns : Prop :=
  ∀ (s : State) (target : Word), (∀ q : Byte, observerAt (stackAt q) s.registry = none) →
    ∃ t u, exec (.jsr target) s = .next t ∧ exec .rts t = .next u ∧ t.pc = target ∧ u.pc = s.pc ∧ u.sp = s.sp

/-! ## Flag instructions and NOP -/

/-- R196 to R202. -/
def Obligations.FlagInstructionsWriteTheirFlagAlone : Prop :=
  ImpliedSets 0x18 .clc (fun _ => [(0, false)]) (fun s p' => { s with p := p' }) ∧
  ImpliedSets 0x38 .sec (fun _ => [(0, true)]) (fun s p' => { s with p := p' }) ∧
  ImpliedSets 0x58 .cli (fun _ => [(2, false)]) (fun s p' => { s with p := p' }) ∧
  ImpliedSets 0x78 .sei (fun _ => [(2, true)]) (fun s p' => { s with p := p' }) ∧
  ImpliedSets 0xB8 .clv (fun _ => [(6, false)]) (fun s p' => { s with p := p' }) ∧
  ImpliedSets 0xD8 .cld (fun _ => [(3, false)]) (fun s p' => { s with p := p' }) ∧
  ImpliedSets 0xF8 .sed (fun _ => [(3, true)]) (fun s p' => { s with p := p' })

/-- R203: nothing beyond the opcode fetch. -/
def Obligations.NopChangesNothing : Prop := ∀ s : State, RowIs .nop [0xEA] ∧ exec .nop s = .next s
end

