-- ==== Sys2Proof/Laws/Decode.lean ====
section
/-! SUPPORT. The laws of the decoder's parts: byte order, and looking a row or a handler up. -/

namespace Sys2Proof

/-- Little-endian assembly as a number (R58). -/
theorem wordOf_toNat (l h : Byte) : (wordOf l h).toNat = 256 * h.toNat + l.toNat := by
  simp only [wordOf, BitVec.toNat_append]
  rw [Nat.shiftLeft_eq, Nat.mul_comm]
  exact (Nat.two_pow_add_eq_or_of_lt l.isLt h.toNat).symm

@[simp] theorem lo8_toNat (w : Word) : (lo8 w).toNat = w.toNat % 256 := by simp [lo8]

@[simp] theorem hi8_toNat (w : Word) : (hi8 w).toNat = w.toNat / 256 := by
  simp only [hi8, BitVec.extractLsb'_toNat, Nat.shiftRight_eq_div_pow]
  omega

@[simp] theorem wordOf_lo8_hi8 (w : Word) : wordOf (lo8 w) (hi8 w) = w := by
  apply BitVec.eq_of_toNat_eq
  rw [wordOf_toNat, lo8_toNat, hi8_toNat]
  omega

@[simp] theorem lo8_wordOf (l h : Byte) : lo8 (wordOf l h) = l := by
  apply BitVec.eq_of_toNat_eq
  rw [lo8_toNat, wordOf_toNat]
  omega

@[simp] theorem hi8_wordOf (l h : Byte) : hi8 (wordOf l h) = h := by
  apply BitVec.eq_of_toNat_eq
  rw [hi8_toNat, wordOf_toNat]
  omega

/-- A row that is found is a row of the table, and carries the opcode looked for. -/
theorem findRow_some {op : Byte} {rs : List Row} {r : Row} (h : findRow op rs = some r) :
    r ∈ rs ∧ r.opcode = op := by
  induction rs with
  | nil => simp [findRow] at h
  | cons q rs ih =>
    unfold findRow at h
    split at h
    · next hq =>
      obtain rfl := Option.some.inj h
      exact ⟨by simp, hq⟩
    · exact ⟨List.mem_cons_of_mem q (ih h).1, (ih h).2⟩

/-- An opcode has a row exactly if a row of the table carries it. -/
theorem findRow_isSome {op : Byte} {rs : List Row} :
    (findRow op rs).isSome = true ↔ op ∈ rs.map (·.opcode) := by
  induction rs with
  | nil => simp [findRow]
  | cons q rs ih =>
    unfold findRow
    split
    · next hq => simp [hq]
    · next hq => rw [ih, List.map_cons, List.mem_cons, or_iff_right fun he => hq he.symm]

/-- A handler that is found stands in the list. -/
theorem findHandler_some {op : Byte} {hs : List (Byte × Nat)} {c : Nat} (h : findHandler op hs = some c) :
    (op, c) ∈ hs := by
  induction hs with
  | nil => simp [findHandler] at h
  | cons q hs ih =>
    unfold findHandler at h
    split at h
    · next hq =>
      obtain rfl := Option.some.inj h
      simp [← hq]
    · exact List.mem_cons_of_mem q (ih h)

/-- In an allowed parameter record an implemented opcode is in the reference set (R89). -/
theorem Config.mem_referenceSet_of_handler {cfg : Config} {op : Byte} {c : Nat} (hw : cfg.wf = true)
    (h : cfg.handler op = some c) : op ∈ referenceSet := by
  have hall : cfg.handlersInReference = true := by
    simp only [Config.wf, Bool.and_eq_true] at hw
    exact hw.1.1.1.1.1.2
  have := List.all_eq_true.mp hall (op, c) (findHandler_some h)
  simpa using this

/-- An address of the inert range is none of the three addresses of an allowed record (R66). -/
theorem Config.ne_of_inInertRange {cfg : Config} {a : Word} (hw : cfg.wf = true) (ha : inInertRange a = true) :
    a ≠ cfg.statusAddr ∧ a ≠ cfg.latchA ∧ a ≠ cfg.latchB := by
  simp only [Config.wf, Config.addressesOutsideInertRange, Bool.and_eq_true, Bool.not_eq_true'] at hw
  obtain ⟨-, ⟨hs, hA⟩, hB⟩ := hw
  refine ⟨?_, ?_, ?_⟩ <;> rintro rfl <;> simp_all

theorem inInertRange_iff {a : Word} : inInertRange a = true ↔ 0x4000 ≤ a.toNat ∧ a.toNat ≤ 0x4017 := by
  simp [inInertRange, BitVec.le_def]

end Sys2Proof
end

