-- ==== Sys2Proof/Laws/Dispatch.lean ====
section
/-! SUPPORT. What each instruction answers, one equation for each constructor: a proof about an instruction
rewrites with its equation and never unfolds the dispatch. -/

namespace Sys2Proof.Machine

theorem exec_ldaImm (v : Byte) (s : State) : exec (.ldaImm v) s = .next (loadA (v, s)) := rfl
theorem exec_ldaZp (z : Byte) (s : State) : exec (.ldaZp z) s = .next (loadA (readZp z s)) := rfl
theorem exec_ldaAbs (a : Word) (s : State) : exec (.ldaAbs a) s = .next (loadA (readAbs a s)) := rfl
theorem exec_ldaAbsX (base : Word) (s : State) : exec (.ldaAbsX base) s = .next (loadA (readAbsX 0xBD base s)) := rfl
theorem exec_ldxImm (v : Byte) (s : State) : exec (.ldxImm v) s = .next (loadX (v, s)) := rfl
theorem exec_ldxZp (z : Byte) (s : State) : exec (.ldxZp z) s = .next (loadX (readZp z s)) := rfl
theorem exec_ldxAbs (a : Word) (s : State) : exec (.ldxAbs a) s = .next (loadX (readAbs a s)) := rfl
theorem exec_ldyImm (v : Byte) (s : State) : exec (.ldyImm v) s = .next (loadY (v, s)) := rfl
theorem exec_ldyZp (z : Byte) (s : State) : exec (.ldyZp z) s = .next (loadY (readZp z s)) := rfl
theorem exec_ldyAbs (a : Word) (s : State) : exec (.ldyAbs a) s = .next (loadY (readAbs a s)) := rfl
theorem exec_ldyAbsX (base : Word) (s : State) : exec (.ldyAbsX base) s = .next (loadY (readAbsX 0xBC base s)) := rfl
theorem exec_staZp (z : Byte) (s : State) : exec (.staZp z) s = .next (writeZp z s.a s) := rfl
theorem exec_staAbs (a : Word) (s : State) : exec (.staAbs a) s = .next (writeAbs a s.a s) := rfl
theorem exec_staAbsX (base : Word) (s : State) : exec (.staAbsX base) s = .next (writeAbsX 0x9D base s.a s) := rfl
theorem exec_stxZp (z : Byte) (s : State) : exec (.stxZp z) s = .next (writeZp z s.x s) := rfl
theorem exec_stxAbs (a : Word) (s : State) : exec (.stxAbs a) s = .next (writeAbs a s.x s) := rfl
theorem exec_styZp (z : Byte) (s : State) : exec (.styZp z) s = .next (writeZp z s.y s) := rfl
theorem exec_styAbs (a : Word) (s : State) : exec (.styAbs a) s = .next (writeAbs a s.y s) := rfl
theorem exec_adcImm (v : Byte) (s : State) : exec (.adcImm v) s = .next (addA (v, s)) := rfl
theorem exec_adcZp (z : Byte) (s : State) : exec (.adcZp z) s = .next (addA (readZp z s)) := rfl
theorem exec_adcAbs (a : Word) (s : State) : exec (.adcAbs a) s = .next (addA (readAbs a s)) := rfl
theorem exec_adcAbsX (base : Word) (s : State) : exec (.adcAbsX base) s = .next (addA (readAbsX 0x7D base s)) := rfl
theorem exec_sbcImm (v : Byte) (s : State) : exec (.sbcImm v) s = .next (subtractA (v, s)) := rfl
theorem exec_sbcZp (z : Byte) (s : State) : exec (.sbcZp z) s = .next (subtractA (readZp z s)) := rfl
theorem exec_sbcAbs (a : Word) (s : State) : exec (.sbcAbs a) s = .next (subtractA (readAbs a s)) := rfl
theorem exec_sbcAbsX (base : Word) (s : State) :
    exec (.sbcAbsX base) s = .next (subtractA (readAbsX 0xFD base s)) := rfl
theorem exec_cmpImm (v : Byte) (s : State) : exec (.cmpImm v) s = .next (compareA (v, s)) := rfl
theorem exec_cmpZp (z : Byte) (s : State) : exec (.cmpZp z) s = .next (compareA (readZp z s)) := rfl
theorem exec_cmpAbs (a : Word) (s : State) : exec (.cmpAbs a) s = .next (compareA (readAbs a s)) := rfl
theorem exec_cmpAbsX (base : Word) (s : State) :
    exec (.cmpAbsX base) s = .next (compareA (readAbsX 0xDD base s)) := rfl
theorem exec_cpxImm (v : Byte) (s : State) : exec (.cpxImm v) s = .next (compareX (v, s)) := rfl
theorem exec_cpxZp (z : Byte) (s : State) : exec (.cpxZp z) s = .next (compareX (readZp z s)) := rfl
theorem exec_cpxAbs (a : Word) (s : State) : exec (.cpxAbs a) s = .next (compareX (readAbs a s)) := rfl
theorem exec_cpyImm (v : Byte) (s : State) : exec (.cpyImm v) s = .next (compareY (v, s)) := rfl
theorem exec_cpyZp (z : Byte) (s : State) : exec (.cpyZp z) s = .next (compareY (readZp z s)) := rfl
theorem exec_cpyAbs (a : Word) (s : State) : exec (.cpyAbs a) s = .next (compareY (readAbs a s)) := rfl
theorem exec_bitZp (z : Byte) (s : State) : exec (.bitZp z) s = .next (bitTestA (readZp z s)) := rfl
theorem exec_bitAbs (a : Word) (s : State) : exec (.bitAbs a) s = .next (bitTestA (readAbs a s)) := rfl
theorem exec_andImm (v : Byte) (s : State) : exec (.andImm v) s = .next (andA (v, s)) := rfl
theorem exec_andZp (z : Byte) (s : State) : exec (.andZp z) s = .next (andA (readZp z s)) := rfl
theorem exec_andAbs (a : Word) (s : State) : exec (.andAbs a) s = .next (andA (readAbs a s)) := rfl
theorem exec_andAbsX (base : Word) (s : State) : exec (.andAbsX base) s = .next (andA (readAbsX 0x3D base s)) := rfl
theorem exec_oraImm (v : Byte) (s : State) : exec (.oraImm v) s = .next (orA (v, s)) := rfl
theorem exec_oraZp (z : Byte) (s : State) : exec (.oraZp z) s = .next (orA (readZp z s)) := rfl
theorem exec_oraAbs (a : Word) (s : State) : exec (.oraAbs a) s = .next (orA (readAbs a s)) := rfl
theorem exec_oraAbsX (base : Word) (s : State) : exec (.oraAbsX base) s = .next (orA (readAbsX 0x1D base s)) := rfl
theorem exec_eorImm (v : Byte) (s : State) : exec (.eorImm v) s = .next (xorA (v, s)) := rfl
theorem exec_eorZp (z : Byte) (s : State) : exec (.eorZp z) s = .next (xorA (readZp z s)) := rfl
theorem exec_eorAbs (a : Word) (s : State) : exec (.eorAbs a) s = .next (xorA (readAbs a s)) := rfl
theorem exec_eorAbsX (base : Word) (s : State) : exec (.eorAbsX base) s = .next (xorA (readAbsX 0x5D base s)) := rfl
theorem exec_aslAcc (s : State) : exec .aslAcc s = .next (modifyA aslOp s) := rfl
theorem exec_aslZp (z : Byte) (s : State) : exec (.aslZp z) s = .next (modifyZp aslOp z s) := rfl
theorem exec_aslAbs (a : Word) (s : State) : exec (.aslAbs a) s = .next (modifyAbs aslOp a s) := rfl
theorem exec_aslAbsX (base : Word) (s : State) : exec (.aslAbsX base) s = .next (modifyAbsX 0x1E aslOp base s) := rfl
theorem exec_lsrAcc (s : State) : exec .lsrAcc s = .next (modifyA lsrOp s) := rfl
theorem exec_lsrZp (z : Byte) (s : State) : exec (.lsrZp z) s = .next (modifyZp lsrOp z s) := rfl
theorem exec_lsrAbs (a : Word) (s : State) : exec (.lsrAbs a) s = .next (modifyAbs lsrOp a s) := rfl
theorem exec_lsrAbsX (base : Word) (s : State) : exec (.lsrAbsX base) s = .next (modifyAbsX 0x5E lsrOp base s) := rfl
theorem exec_rolAcc (s : State) : exec .rolAcc s = .next (modifyA rolOp s) := rfl
theorem exec_rolZp (z : Byte) (s : State) : exec (.rolZp z) s = .next (modifyZp rolOp z s) := rfl
theorem exec_rolAbs (a : Word) (s : State) : exec (.rolAbs a) s = .next (modifyAbs rolOp a s) := rfl
theorem exec_rolAbsX (base : Word) (s : State) : exec (.rolAbsX base) s = .next (modifyAbsX 0x3E rolOp base s) := rfl
theorem exec_rorAcc (s : State) : exec .rorAcc s = .next (modifyA rorOp s) := rfl
theorem exec_rorZp (z : Byte) (s : State) : exec (.rorZp z) s = .next (modifyZp rorOp z s) := rfl
theorem exec_rorAbs (a : Word) (s : State) : exec (.rorAbs a) s = .next (modifyAbs rorOp a s) := rfl
theorem exec_rorAbsX (base : Word) (s : State) : exec (.rorAbsX base) s = .next (modifyAbsX 0x7E rorOp base s) := rfl
theorem exec_incZp (z : Byte) (s : State) : exec (.incZp z) s = .next (modifyZp incOp z s) := rfl
theorem exec_incAbs (a : Word) (s : State) : exec (.incAbs a) s = .next (modifyAbs incOp a s) := rfl
theorem exec_incAbsX (base : Word) (s : State) : exec (.incAbsX base) s = .next (modifyAbsX 0xFE incOp base s) := rfl
theorem exec_decZp (z : Byte) (s : State) : exec (.decZp z) s = .next (modifyZp decOp z s) := rfl
theorem exec_decAbs (a : Word) (s : State) : exec (.decAbs a) s = .next (modifyAbs decOp a s) := rfl
theorem exec_decAbsX (base : Word) (s : State) : exec (.decAbsX base) s = .next (modifyAbsX 0xDE decOp base s) := rfl
theorem exec_inx (s : State) : exec .inx s = .next { s with x := (incOp s.x s.p).1, p := (incOp s.x s.p).2 } := rfl
theorem exec_iny (s : State) : exec .iny s = .next { s with y := (incOp s.y s.p).1, p := (incOp s.y s.p).2 } := rfl
theorem exec_dex (s : State) : exec .dex s = .next { s with x := (decOp s.x s.p).1, p := (decOp s.x s.p).2 } := rfl
theorem exec_dey (s : State) : exec .dey s = .next { s with y := (decOp s.y s.p).1, p := (decOp s.y s.p).2 } := rfl
theorem exec_tax (s : State) : exec .tax s = .next { s with x := s.a, p := setZN s.a s.p } := rfl
theorem exec_txa (s : State) : exec .txa s = .next { s with a := s.x, p := setZN s.x s.p } := rfl
theorem exec_tay (s : State) : exec .tay s = .next { s with y := s.a, p := setZN s.a s.p } := rfl
theorem exec_tya (s : State) : exec .tya s = .next { s with a := s.y, p := setZN s.y s.p } := rfl
theorem exec_tsx (s : State) : exec .tsx s = .next { s with x := s.sp, p := setZN s.sp s.p } := rfl
theorem exec_txs (s : State) : exec .txs s = .next { s with sp := s.x } := rfl
theorem exec_pha (s : State) : exec .pha s = .next (push s.a s) := rfl
theorem exec_pla (s : State) :
    exec .pla s = .next { (pop s).2 with a := (pop s).1, p := setZN (pop s).1 (pop s).2.p } := rfl
theorem exec_php (s : State) : exec .php s = .next (push (pushedStatus s.p) s) := rfl
theorem exec_plp (s : State) : exec .plp s = .next { (pop s).2 with p := pulledStatus (pop s).1 } := rfl
theorem exec_bpl (d : Byte) (s : State) : exec (.bpl d) s = .next (branch (!getFlag .n s.p) d s) := rfl
theorem exec_bmi (d : Byte) (s : State) : exec (.bmi d) s = .next (branch (getFlag .n s.p) d s) := rfl
theorem exec_bvc (d : Byte) (s : State) : exec (.bvc d) s = .next (branch (!getFlag .v s.p) d s) := rfl
theorem exec_bvs (d : Byte) (s : State) : exec (.bvs d) s = .next (branch (getFlag .v s.p) d s) := rfl
theorem exec_bcc (d : Byte) (s : State) : exec (.bcc d) s = .next (branch (!getFlag .c s.p) d s) := rfl
theorem exec_bcs (d : Byte) (s : State) : exec (.bcs d) s = .next (branch (getFlag .c s.p) d s) := rfl
theorem exec_bne (d : Byte) (s : State) : exec (.bne d) s = .next (branch (!getFlag .z s.p) d s) := rfl
theorem exec_beq (d : Byte) (s : State) : exec (.beq d) s = .next (branch (getFlag .z s.p) d s) := rfl
theorem exec_jmp (target : Word) (s : State) : exec (.jmp target) s = .next { s with pc := target } := rfl
theorem exec_jsr (target : Word) (s : State) :
    exec (.jsr target) s = .next { push (lo8 (s.pc - 1)) (push (hi8 (s.pc - 1)) s) with pc := target } := rfl
theorem exec_rts (s : State) :
    exec .rts s = .next { (pop (pop s).2).2 with pc := wordOf (pop s).1 (pop (pop s).2).1 + 1 } := rfl
theorem exec_clc (s : State) : exec .clc s = .next { s with p := putFlag .c false s.p } := rfl
theorem exec_sec (s : State) : exec .sec s = .next { s with p := putFlag .c true s.p } := rfl
theorem exec_cli (s : State) : exec .cli s = .next { s with p := putFlag .i false s.p } := rfl
theorem exec_sei (s : State) : exec .sei s = .next { s with p := putFlag .i true s.p } := rfl
theorem exec_clv (s : State) : exec .clv s = .next { s with p := putFlag .v false s.p } := rfl
theorem exec_cld (s : State) : exec .cld s = .next { s with p := putFlag .d false s.p } := rfl
theorem exec_sed (s : State) : exec .sed s = .next { s with p := putFlag .d true s.p } := rfl
theorem exec_nop (s : State) : exec .nop s = .next s := rfl

end Sys2Proof.Machine
end

