-- ==== Sys2Proof/Laws/Memory.lean ====
section
/-! SUPPORT. The laws of memory as data: read after write, and that every operation keeps the canonical form. -/

namespace Sys2Proof.Machine

@[simp] theorem Memory.read_nil (a : Nat) : Memory.read [] a = Memory.unlisted := rfl

theorem Memory.read_cons (c : Host.Cell) (m : Memory) (a : Nat) :
    Memory.read (c :: m) a = if c.1 = a then c.2 else Memory.read m a := rfl

theorem Memory.read_remove (m : Memory) (a b : Nat) :
    (Memory.remove m a).read b = if b = a then Memory.unlisted else m.read b := by
  induction m with
  | nil => simp [Memory.remove]
  | cons c m ih =>
    unfold Memory.remove at ih ⊢
    by_cases h : c.1 = a
    · simp only [List.filter_cons, h, ne_eq, not_true_eq_false, decide_false, Bool.false_eq_true, if_false, ih,
        Memory.read_cons]
      by_cases hb : b = a
      · simp [hb]
      · simp [hb, Ne.symm hb]
    · simp only [List.filter_cons, h, ne_eq, not_false_eq_true, decide_true, if_true, Memory.read_cons, ih]
      by_cases hb : b = a
      · simp [hb, h]
      · simp [hb]

theorem Memory.read_insert (m : Memory) (a b : Nat) (v : Byte) (hm : ∀ c ∈ m, c.1 ≠ a) :
    (Memory.insert a v m).read b = if b = a then v else m.read b := by
  induction m with
  | nil => simp only [Memory.insert, Memory.read_cons, Memory.read_nil, eq_comm]
  | cons c m ih =>
    have hc : c.1 ≠ a := hm c (by simp)
    unfold Memory.insert
    split
    · simp only [Memory.read_cons, eq_comm]
    · rw [Memory.read_cons, ih fun d hd => hm d (by simp [hd]), Memory.read_cons]
      by_cases hb : b = a
      · simp [hb, hc]
      · simp [hb]

/-- Read after write, at every address. -/
theorem Memory.read_write (m : Memory) (a b : Nat) (v : Byte) :
    (Memory.write m a v).read b = if b = a then v else m.read b := by
  unfold Memory.write
  split
  · next h => rw [Memory.read_remove, h]
  · rw [Memory.read_insert, Memory.read_remove]
    · by_cases hb : b = a <;> simp [hb]
    · intro c hc
      simp only [Memory.remove, List.mem_filter, decide_eq_true_eq] at hc
      exact hc.2

@[simp] theorem Memory.read_write_same (m : Memory) (a : Nat) (v : Byte) : (Memory.write m a v).read a = v := by
  simp [Memory.read_write]

theorem Memory.read_write_ne (m : Memory) {a b : Nat} (v : Byte) (h : b ≠ a) :
    (Memory.write m a v).read b = m.read b := by simp [Memory.read_write, h]

/-! ## The canonical form -/

theorem Memory.wfFrom_cons {lo : Nat} {c : Host.Cell} {m : Memory} :
    Memory.wfFrom lo (c :: m) = true ↔
      lo ≤ c.1 ∧ c.1 < 65536 ∧ c.2 ≠ Memory.unlisted ∧ Memory.wfFrom (c.1 + 1) m = true := by
  simp only [Memory.wfFrom, Bool.and_eq_true, decide_eq_true_eq, and_assoc]

theorem Memory.wfFrom_mono {lo lo' : Nat} {m : Memory} (h : lo' ≤ lo) (hm : Memory.wfFrom lo m = true) :
    Memory.wfFrom lo' m = true := by
  cases m with
  | nil => rfl
  | cons c m =>
    rw [Memory.wfFrom_cons] at hm ⊢
    exact ⟨h.trans hm.1, hm.2⟩

theorem Memory.wfFrom_remove {lo : Nat} {m : Memory} (a : Nat) (hm : Memory.wfFrom lo m = true) :
    Memory.wfFrom lo (m.remove a) = true := by
  induction m generalizing lo with
  | nil => rfl
  | cons c m ih =>
    rw [Memory.wfFrom_cons] at hm
    unfold Memory.remove at ih ⊢
    by_cases h : c.1 = a
    · simp only [List.filter_cons, h, ne_eq, not_true_eq_false, decide_false, Bool.false_eq_true, if_false]
      exact Memory.wfFrom_mono (by omega) (ih hm.2.2.2)
    · simp only [List.filter_cons, h, ne_eq, not_false_eq_true, decide_true, if_true]
      rw [Memory.wfFrom_cons]
      exact ⟨hm.1, hm.2.1, hm.2.2.1, ih hm.2.2.2⟩

theorem Memory.wfFrom_insert {lo a : Nat} {v : Byte} {m : Memory} (hlo : lo ≤ a) (ha : a < 65536)
    (hv : v ≠ Memory.unlisted) (hm : Memory.wfFrom lo m = true) (hn : ∀ c ∈ m, c.1 ≠ a) :
    Memory.wfFrom lo (Memory.insert a v m) = true := by
  induction m generalizing lo with
  | nil => simp [Memory.insert, Memory.wfFrom, hlo, ha, hv]
  | cons c m ih =>
    rw [Memory.wfFrom_cons] at hm
    have hc : c.1 ≠ a := hn c (by simp)
    unfold Memory.insert
    split
    · next h =>
      rw [Memory.wfFrom_cons, Memory.wfFrom_cons]
      exact ⟨hlo, ha, hv, by omega, hm.2⟩
    · rw [Memory.wfFrom_cons]
      exact ⟨hm.1, hm.2.1, hm.2.2.1, ih (by omega) hm.2.2.2 fun d hd => hn d (by simp [hd])⟩

/-- A write keeps the canonical form. -/
theorem Memory.wf_write {m : Memory} {a : Nat} (v : Byte) (ha : a < 65536) (hm : m.wf = true) :
    (m.write a v).wf = true := by
  unfold Memory.write
  split
  · exact Memory.wfFrom_remove a hm
  · next hv =>
    refine Memory.wfFrom_insert (Nat.zero_le a) ha hv (Memory.wfFrom_remove a hm) ?_
    intro c hc
    simp only [Memory.remove, List.mem_filter, decide_eq_true_eq] at hc
    exact hc.2

/-- A write at an address of the machine keeps the canonical form. -/
theorem Memory.wf_write_word {m : Memory} (a : Word) (v : Byte) (hm : m.wf = true) :
    (m.write a.toNat v).wf = true := Memory.wf_write v a.isLt hm

/-- What is below every entry reads as unlisted. -/
theorem Memory.read_of_wfFrom_lt {lo b : Nat} {m : Memory} (hm : Memory.wfFrom lo m = true) (hb : b < lo) :
    m.read b = Memory.unlisted := by
  induction m generalizing lo with
  | nil => rfl
  | cons c m ih =>
    rw [Memory.wfFrom_cons] at hm
    rw [Memory.read_cons, if_neg (by omega)]
    exact ih hm.2.2.2 (by omega)

/-- A load of consecutive bytes keeps the canonical form. -/
theorem Memory.wf_load {m : Memory} {a : Nat} {bs : List Byte} (h : a + bs.length ≤ 65536) (hm : m.wf = true) :
    (Memory.load a bs m).wf = true := by
  induction bs generalizing a m with
  | nil => exact hm
  | cons b bs ih =>
    simp only [List.length_cons] at h
    exact ih (by omega) (Memory.wf_write b (by omega) hm)

/-- What a load of consecutive bytes leaves at an address. -/
theorem Memory.read_load (bs : List Byte) (m : Memory) (a b : Nat) :
    (Memory.load a bs m).read b = if h : a ≤ b ∧ b < a + bs.length then bs[b - a]'(by omega) else m.read b := by
  induction bs generalizing a m with
  | nil =>
    simp only [Memory.load, List.length_nil]
    rw [dif_neg (by omega)]
  | cons c bs ih =>
    simp only [Memory.load, ih, Memory.read_write, List.length_cons]
    by_cases h1 : b = a
    · subst h1
      simp
    · by_cases h2 : a + 1 ≤ b ∧ b < a + 1 + bs.length
      · rw [dif_pos h2, dif_pos (by omega)]
        have : b - a = (b - (a + 1)) + 1 := by omega
        simp [this]
      · rw [dif_neg h2, dif_neg (by omega), if_neg h1]

end Sys2Proof.Machine
end

