-- ==== Sys2Proof/Laws/State.lean ====
section
/-! SUPPORT. For each named operation on the state, one lemma for each field it leaves unchanged, and one for
each field it sets, so that no later proof unfolds a record update. -/

namespace Sys2Proof.Machine

/-! ## Raw and public accesses -/

@[simp] theorem rawWrite_pc (b : Word) (v : Byte) (s : State) : (rawWrite b v s).pc = s.pc := rfl
@[simp] theorem rawWrite_sp (b : Word) (v : Byte) (s : State) : (rawWrite b v s).sp = s.sp := rfl
@[simp] theorem rawWrite_a (b : Word) (v : Byte) (s : State) : (rawWrite b v s).a = s.a := rfl
@[simp] theorem rawWrite_x (b : Word) (v : Byte) (s : State) : (rawWrite b v s).x = s.x := rfl
@[simp] theorem rawWrite_y (b : Word) (v : Byte) (s : State) : (rawWrite b v s).y = s.y := rfl
@[simp] theorem rawWrite_p (b : Word) (v : Byte) (s : State) : (rawWrite b v s).p = s.p := rfl
@[simp] theorem rawWrite_registry (b : Word) (v : Byte) (s : State) : (rawWrite b v s).registry = s.registry := rfl
@[simp] theorem rawWrite_counter (b : Word) (v : Byte) (s : State) : (rawWrite b v s).counter = s.counter := rfl
@[simp] theorem rawWrite_vblank (b : Word) (v : Byte) (s : State) : (rawWrite b v s).vblank = s.vblank := rfl
@[simp] theorem rawWrite_halted (b : Word) (v : Byte) (s : State) : (rawWrite b v s).halted = s.halted := rfl
@[simp] theorem rawWrite_cycles (b : Word) (v : Byte) (s : State) : (rawWrite b v s).cycles = s.cycles := rfl
@[simp] theorem rawWrite_cfg (b : Word) (v : Byte) (s : State) : (rawWrite b v s).cfg = s.cfg := rfl

@[simp] theorem rawWrite_mem (b : Word) (v : Byte) (s : State) : (rawWrite b v s).mem = s.mem.write b.toNat v := rfl

@[simp] theorem notify_pc (b : Word) (rd : Bool) (s : State) : (notify b rd s).pc = s.pc := by unfold notify; split <;> rfl
@[simp] theorem notify_sp (b : Word) (rd : Bool) (s : State) : (notify b rd s).sp = s.sp := by unfold notify; split <;> rfl
@[simp] theorem notify_a (b : Word) (rd : Bool) (s : State) : (notify b rd s).a = s.a := by unfold notify; split <;> rfl
@[simp] theorem notify_x (b : Word) (rd : Bool) (s : State) : (notify b rd s).x = s.x := by unfold notify; split <;> rfl
@[simp] theorem notify_y (b : Word) (rd : Bool) (s : State) : (notify b rd s).y = s.y := by unfold notify; split <;> rfl
@[simp] theorem notify_p (b : Word) (rd : Bool) (s : State) : (notify b rd s).p = s.p := by unfold notify; split <;> rfl
@[simp] theorem notify_registry (b : Word) (rd : Bool) (s : State) : (notify b rd s).registry = s.registry := by unfold notify; split <;> rfl
@[simp] theorem notify_counter (b : Word) (rd : Bool) (s : State) : (notify b rd s).counter = s.counter := by unfold notify; split <;> rfl
@[simp] theorem notify_vblank (b : Word) (rd : Bool) (s : State) : (notify b rd s).vblank = s.vblank := by unfold notify; split <;> rfl
@[simp] theorem notify_halted (b : Word) (rd : Bool) (s : State) : (notify b rd s).halted = s.halted := by unfold notify; split <;> rfl
@[simp] theorem notify_cycles (b : Word) (rd : Bool) (s : State) : (notify b rd s).cycles = s.cycles := by unfold notify; split <;> rfl
@[simp] theorem notify_cfg (b : Word) (rd : Bool) (s : State) : (notify b rd s).cfg = s.cfg := by unfold notify; split <;> rfl

@[simp] theorem memRead_fst (b : Word) (s : State) : (memRead b s).1 = rawRead b s := rfl

@[simp] theorem memRead_pc (b : Word) (s : State) : ((memRead b s).2).pc = s.pc := by simp [memRead]
@[simp] theorem memRead_sp (b : Word) (s : State) : ((memRead b s).2).sp = s.sp := by simp [memRead]
@[simp] theorem memRead_a (b : Word) (s : State) : ((memRead b s).2).a = s.a := by simp [memRead]
@[simp] theorem memRead_x (b : Word) (s : State) : ((memRead b s).2).x = s.x := by simp [memRead]
@[simp] theorem memRead_y (b : Word) (s : State) : ((memRead b s).2).y = s.y := by simp [memRead]
@[simp] theorem memRead_p (b : Word) (s : State) : ((memRead b s).2).p = s.p := by simp [memRead]
@[simp] theorem memRead_registry (b : Word) (s : State) : ((memRead b s).2).registry = s.registry := by simp [memRead]
@[simp] theorem memRead_counter (b : Word) (s : State) : ((memRead b s).2).counter = s.counter := by simp [memRead]
@[simp] theorem memRead_vblank (b : Word) (s : State) : ((memRead b s).2).vblank = s.vblank := by simp [memRead]
@[simp] theorem memRead_halted (b : Word) (s : State) : ((memRead b s).2).halted = s.halted := by simp [memRead]
@[simp] theorem memRead_cycles (b : Word) (s : State) : ((memRead b s).2).cycles = s.cycles := by simp [memRead]
@[simp] theorem memRead_cfg (b : Word) (s : State) : ((memRead b s).2).cfg = s.cfg := by simp [memRead]

@[simp] theorem memWrite_pc (b : Word) (v : Byte) (s : State) : (memWrite b v s).pc = s.pc := by simp [memWrite]
@[simp] theorem memWrite_sp (b : Word) (v : Byte) (s : State) : (memWrite b v s).sp = s.sp := by simp [memWrite]
@[simp] theorem memWrite_a (b : Word) (v : Byte) (s : State) : (memWrite b v s).a = s.a := by simp [memWrite]
@[simp] theorem memWrite_x (b : Word) (v : Byte) (s : State) : (memWrite b v s).x = s.x := by simp [memWrite]
@[simp] theorem memWrite_y (b : Word) (v : Byte) (s : State) : (memWrite b v s).y = s.y := by simp [memWrite]
@[simp] theorem memWrite_p (b : Word) (v : Byte) (s : State) : (memWrite b v s).p = s.p := by simp [memWrite]
@[simp] theorem memWrite_registry (b : Word) (v : Byte) (s : State) : (memWrite b v s).registry = s.registry := by simp [memWrite]
@[simp] theorem memWrite_counter (b : Word) (v : Byte) (s : State) : (memWrite b v s).counter = s.counter := by simp [memWrite]
@[simp] theorem memWrite_vblank (b : Word) (v : Byte) (s : State) : (memWrite b v s).vblank = s.vblank := by simp [memWrite]
@[simp] theorem memWrite_halted (b : Word) (v : Byte) (s : State) : (memWrite b v s).halted = s.halted := by simp [memWrite]
@[simp] theorem memWrite_cycles (b : Word) (v : Byte) (s : State) : (memWrite b v s).cycles = s.cycles := by simp [memWrite]
@[simp] theorem memWrite_cfg (b : Word) (v : Byte) (s : State) : (memWrite b v s).cfg = s.cfg := by simp [memWrite]

/-! ## Fetch and stack -/

@[simp] theorem fetch8_fst (s : State) : (fetch8 s).1 = rawRead s.pc s := rfl
@[simp] theorem fetch8_pc (s : State) : (fetch8 s).2.pc = s.pc + 1 := rfl
@[simp] theorem fetch8_sp (s : State) : ((fetch8 s).2).sp = s.sp := by simp [fetch8]
@[simp] theorem fetch8_a (s : State) : ((fetch8 s).2).a = s.a := by simp [fetch8]
@[simp] theorem fetch8_x (s : State) : ((fetch8 s).2).x = s.x := by simp [fetch8]
@[simp] theorem fetch8_y (s : State) : ((fetch8 s).2).y = s.y := by simp [fetch8]
@[simp] theorem fetch8_p (s : State) : ((fetch8 s).2).p = s.p := by simp [fetch8]
@[simp] theorem fetch8_registry (s : State) : ((fetch8 s).2).registry = s.registry := by simp [fetch8]
@[simp] theorem fetch8_counter (s : State) : ((fetch8 s).2).counter = s.counter := by simp [fetch8]
@[simp] theorem fetch8_vblank (s : State) : ((fetch8 s).2).vblank = s.vblank := by simp [fetch8]
@[simp] theorem fetch8_halted (s : State) : ((fetch8 s).2).halted = s.halted := by simp [fetch8]
@[simp] theorem fetch8_cycles (s : State) : ((fetch8 s).2).cycles = s.cycles := by simp [fetch8]
@[simp] theorem fetch8_cfg (s : State) : ((fetch8 s).2).cfg = s.cfg := by simp [fetch8]

@[simp] theorem push_sp (v : Byte) (s : State) : (push v s).sp = s.sp - 1 := rfl
@[simp] theorem push_pc (v : Byte) (s : State) : (push v s).pc = s.pc := by simp [push]
@[simp] theorem push_a (v : Byte) (s : State) : (push v s).a = s.a := by simp [push]
@[simp] theorem push_x (v : Byte) (s : State) : (push v s).x = s.x := by simp [push]
@[simp] theorem push_y (v : Byte) (s : State) : (push v s).y = s.y := by simp [push]
@[simp] theorem push_p (v : Byte) (s : State) : (push v s).p = s.p := by simp [push]
@[simp] theorem push_registry (v : Byte) (s : State) : (push v s).registry = s.registry := by simp [push]
@[simp] theorem push_counter (v : Byte) (s : State) : (push v s).counter = s.counter := by simp [push]
@[simp] theorem push_vblank (v : Byte) (s : State) : (push v s).vblank = s.vblank := by simp [push]
@[simp] theorem push_halted (v : Byte) (s : State) : (push v s).halted = s.halted := by simp [push]
@[simp] theorem push_cycles (v : Byte) (s : State) : (push v s).cycles = s.cycles := by simp [push]
@[simp] theorem push_cfg (v : Byte) (s : State) : (push v s).cfg = s.cfg := by simp [push]

@[simp] theorem pop_fst (s : State) : (pop s).1 = rawRead (stackAddr (s.sp + 1)) s := rfl
@[simp] theorem pop_sp (s : State) : (pop s).2.sp = s.sp + 1 := by simp [pop]
@[simp] theorem pop_pc (s : State) : ((pop s).2).pc = s.pc := by simp [pop]
@[simp] theorem pop_a (s : State) : ((pop s).2).a = s.a := by simp [pop]
@[simp] theorem pop_x (s : State) : ((pop s).2).x = s.x := by simp [pop]
@[simp] theorem pop_y (s : State) : ((pop s).2).y = s.y := by simp [pop]
@[simp] theorem pop_p (s : State) : ((pop s).2).p = s.p := by simp [pop]
@[simp] theorem pop_registry (s : State) : ((pop s).2).registry = s.registry := by simp [pop]
@[simp] theorem pop_counter (s : State) : ((pop s).2).counter = s.counter := by simp [pop]
@[simp] theorem pop_vblank (s : State) : ((pop s).2).vblank = s.vblank := by simp [pop]
@[simp] theorem pop_halted (s : State) : ((pop s).2).halted = s.halted := by simp [pop]
@[simp] theorem pop_cycles (s : State) : ((pop s).2).cycles = s.cycles := by simp [pop]
@[simp] theorem pop_cfg (s : State) : ((pop s).2).cfg = s.cfg := by simp [pop]

/-! ## Taking UnsupportedOpcode -/

@[simp] theorem takeUnsupported_pc (op : Byte) (s : State) : (takeUnsupported op s).pc = s.pc := rfl
@[simp] theorem takeUnsupported_sp (op : Byte) (s : State) : (takeUnsupported op s).sp = s.sp := rfl
@[simp] theorem takeUnsupported_a (op : Byte) (s : State) : (takeUnsupported op s).a = s.a := rfl
@[simp] theorem takeUnsupported_x (op : Byte) (s : State) : (takeUnsupported op s).x = s.x := rfl
@[simp] theorem takeUnsupported_y (op : Byte) (s : State) : (takeUnsupported op s).y = s.y := rfl
@[simp] theorem takeUnsupported_p (op : Byte) (s : State) : (takeUnsupported op s).p = s.p := rfl
@[simp] theorem takeUnsupported_mem (op : Byte) (s : State) : (takeUnsupported op s).mem = s.mem := rfl
@[simp] theorem takeUnsupported_registry (op : Byte) (s : State) : (takeUnsupported op s).registry = s.registry := rfl
@[simp] theorem takeUnsupported_counter (op : Byte) (s : State) : (takeUnsupported op s).counter = s.counter := rfl
@[simp] theorem takeUnsupported_vblank (op : Byte) (s : State) : (takeUnsupported op s).vblank = s.vblank := rfl
@[simp] theorem takeUnsupported_cfg (op : Byte) (s : State) : (takeUnsupported op s).cfg = s.cfg := rfl

@[simp] theorem takeUnsupported_cycles (op : Byte) (s : State) : (takeUnsupported op s).cycles = 0 := rfl
@[simp] theorem takeUnsupported_halted (op : Byte) (s : State) :
    (takeUnsupported op s).halted = some (.unsupportedOpcode op (snapshot s)) := rfl

/-! ## Operand forms -/

@[simp] theorem absXPenalty_pc (op : Byte) (base : Word) (s : State) : (absXPenalty op base s).pc = s.pc := by unfold absXPenalty; split <;> rfl
@[simp] theorem absXPenalty_sp (op : Byte) (base : Word) (s : State) : (absXPenalty op base s).sp = s.sp := by unfold absXPenalty; split <;> rfl
@[simp] theorem absXPenalty_a (op : Byte) (base : Word) (s : State) : (absXPenalty op base s).a = s.a := by unfold absXPenalty; split <;> rfl
@[simp] theorem absXPenalty_x (op : Byte) (base : Word) (s : State) : (absXPenalty op base s).x = s.x := by unfold absXPenalty; split <;> rfl
@[simp] theorem absXPenalty_y (op : Byte) (base : Word) (s : State) : (absXPenalty op base s).y = s.y := by unfold absXPenalty; split <;> rfl
@[simp] theorem absXPenalty_p (op : Byte) (base : Word) (s : State) : (absXPenalty op base s).p = s.p := by unfold absXPenalty; split <;> rfl
@[simp] theorem absXPenalty_mem (op : Byte) (base : Word) (s : State) : (absXPenalty op base s).mem = s.mem := by unfold absXPenalty; split <;> rfl
@[simp] theorem absXPenalty_registry (op : Byte) (base : Word) (s : State) : (absXPenalty op base s).registry = s.registry := by unfold absXPenalty; split <;> rfl
@[simp] theorem absXPenalty_counter (op : Byte) (base : Word) (s : State) : (absXPenalty op base s).counter = s.counter := by unfold absXPenalty; split <;> rfl
@[simp] theorem absXPenalty_vblank (op : Byte) (base : Word) (s : State) : (absXPenalty op base s).vblank = s.vblank := by unfold absXPenalty; split <;> rfl
@[simp] theorem absXPenalty_halted (op : Byte) (base : Word) (s : State) : (absXPenalty op base s).halted = s.halted := by unfold absXPenalty; split <;> rfl
@[simp] theorem absXPenalty_cfg (op : Byte) (base : Word) (s : State) : (absXPenalty op base s).cfg = s.cfg := by unfold absXPenalty; split <;> rfl

@[simp] theorem branch_sp (c : Bool) (d : Byte) (s : State) : (branch c d s).sp = s.sp := by unfold branch; split <;> rfl
@[simp] theorem branch_a (c : Bool) (d : Byte) (s : State) : (branch c d s).a = s.a := by unfold branch; split <;> rfl
@[simp] theorem branch_x (c : Bool) (d : Byte) (s : State) : (branch c d s).x = s.x := by unfold branch; split <;> rfl
@[simp] theorem branch_y (c : Bool) (d : Byte) (s : State) : (branch c d s).y = s.y := by unfold branch; split <;> rfl
@[simp] theorem branch_p (c : Bool) (d : Byte) (s : State) : (branch c d s).p = s.p := by unfold branch; split <;> rfl
@[simp] theorem branch_mem (c : Bool) (d : Byte) (s : State) : (branch c d s).mem = s.mem := by unfold branch; split <;> rfl
@[simp] theorem branch_registry (c : Bool) (d : Byte) (s : State) : (branch c d s).registry = s.registry := by unfold branch; split <;> rfl
@[simp] theorem branch_counter (c : Bool) (d : Byte) (s : State) : (branch c d s).counter = s.counter := by unfold branch; split <;> rfl
@[simp] theorem branch_vblank (c : Bool) (d : Byte) (s : State) : (branch c d s).vblank = s.vblank := by unfold branch; split <;> rfl
@[simp] theorem branch_halted (c : Bool) (d : Byte) (s : State) : (branch c d s).halted = s.halted := by unfold branch; split <;> rfl
@[simp] theorem branch_cfg (c : Bool) (d : Byte) (s : State) : (branch c d s).cfg = s.cfg := by unfold branch; split <;> rfl

@[simp] theorem modifyAt_pc (f : Byte → Byte → Byte × Byte) (ea : Word) (s : State) : (modifyAt f ea s).pc = s.pc := by simp [modifyAt]
@[simp] theorem modifyAt_sp (f : Byte → Byte → Byte × Byte) (ea : Word) (s : State) : (modifyAt f ea s).sp = s.sp := by simp [modifyAt]
@[simp] theorem modifyAt_a (f : Byte → Byte → Byte × Byte) (ea : Word) (s : State) : (modifyAt f ea s).a = s.a := by simp [modifyAt]
@[simp] theorem modifyAt_x (f : Byte → Byte → Byte × Byte) (ea : Word) (s : State) : (modifyAt f ea s).x = s.x := by simp [modifyAt]
@[simp] theorem modifyAt_y (f : Byte → Byte → Byte × Byte) (ea : Word) (s : State) : (modifyAt f ea s).y = s.y := by simp [modifyAt]
@[simp] theorem modifyAt_registry (f : Byte → Byte → Byte × Byte) (ea : Word) (s : State) : (modifyAt f ea s).registry = s.registry := by simp [modifyAt]
@[simp] theorem modifyAt_counter (f : Byte → Byte → Byte × Byte) (ea : Word) (s : State) : (modifyAt f ea s).counter = s.counter := by simp [modifyAt]
@[simp] theorem modifyAt_vblank (f : Byte → Byte → Byte × Byte) (ea : Word) (s : State) : (modifyAt f ea s).vblank = s.vblank := by simp [modifyAt]
@[simp] theorem modifyAt_halted (f : Byte → Byte → Byte × Byte) (ea : Word) (s : State) : (modifyAt f ea s).halted = s.halted := by simp [modifyAt]
@[simp] theorem modifyAt_cycles (f : Byte → Byte → Byte × Byte) (ea : Word) (s : State) : (modifyAt f ea s).cycles = s.cycles := by simp [modifyAt]
@[simp] theorem modifyAt_cfg (f : Byte → Byte → Byte × Byte) (ea : Word) (s : State) : (modifyAt f ea s).cfg = s.cfg := by simp [modifyAt]

/-! ## The timing engine -/

@[simp] theorem clearVblank_pc (s : State) : (clearVblank s).pc = s.pc := rfl
@[simp] theorem clearVblank_sp (s : State) : (clearVblank s).sp = s.sp := rfl
@[simp] theorem clearVblank_a (s : State) : (clearVblank s).a = s.a := rfl
@[simp] theorem clearVblank_x (s : State) : (clearVblank s).x = s.x := rfl
@[simp] theorem clearVblank_y (s : State) : (clearVblank s).y = s.y := rfl
@[simp] theorem clearVblank_p (s : State) : (clearVblank s).p = s.p := rfl
@[simp] theorem clearVblank_registry (s : State) : (clearVblank s).registry = s.registry := rfl
@[simp] theorem clearVblank_counter (s : State) : (clearVblank s).counter = s.counter := rfl
@[simp] theorem clearVblank_halted (s : State) : (clearVblank s).halted = s.halted := rfl
@[simp] theorem clearVblank_cycles (s : State) : (clearVblank s).cycles = s.cycles := rfl
@[simp] theorem clearVblank_cfg (s : State) : (clearVblank s).cfg = s.cfg := rfl

@[simp] theorem clearVblank_vblank (s : State) : (clearVblank s).vblank = false := rfl

@[simp] theorem setVblank_pc (s : State) : (setVblank s).pc = s.pc := rfl
@[simp] theorem setVblank_sp (s : State) : (setVblank s).sp = s.sp := rfl
@[simp] theorem setVblank_a (s : State) : (setVblank s).a = s.a := rfl
@[simp] theorem setVblank_x (s : State) : (setVblank s).x = s.x := rfl
@[simp] theorem setVblank_y (s : State) : (setVblank s).y = s.y := rfl
@[simp] theorem setVblank_p (s : State) : (setVblank s).p = s.p := rfl
@[simp] theorem setVblank_registry (s : State) : (setVblank s).registry = s.registry := rfl
@[simp] theorem setVblank_counter (s : State) : (setVblank s).counter = s.counter := rfl
@[simp] theorem setVblank_halted (s : State) : (setVblank s).halted = s.halted := rfl
@[simp] theorem setVblank_cycles (s : State) : (setVblank s).cycles = s.cycles := rfl
@[simp] theorem setVblank_cfg (s : State) : (setVblank s).cfg = s.cfg := rfl

@[simp] theorem setVblank_vblank (s : State) : (setVblank s).vblank = true := rfl

@[simp] theorem actOnBand_pc (s : State) : (actOnBand s).pc = s.pc := by unfold actOnBand; split <;> [skip; split] <;> simp
@[simp] theorem actOnBand_sp (s : State) : (actOnBand s).sp = s.sp := by unfold actOnBand; split <;> [skip; split] <;> simp
@[simp] theorem actOnBand_a (s : State) : (actOnBand s).a = s.a := by unfold actOnBand; split <;> [skip; split] <;> simp
@[simp] theorem actOnBand_x (s : State) : (actOnBand s).x = s.x := by unfold actOnBand; split <;> [skip; split] <;> simp
@[simp] theorem actOnBand_y (s : State) : (actOnBand s).y = s.y := by unfold actOnBand; split <;> [skip; split] <;> simp
@[simp] theorem actOnBand_p (s : State) : (actOnBand s).p = s.p := by unfold actOnBand; split <;> [skip; split] <;> simp
@[simp] theorem actOnBand_registry (s : State) : (actOnBand s).registry = s.registry := by unfold actOnBand; split <;> [skip; split] <;> simp
@[simp] theorem actOnBand_counter (s : State) : (actOnBand s).counter = s.counter := by unfold actOnBand; split <;> [skip; split] <;> simp
@[simp] theorem actOnBand_halted (s : State) : (actOnBand s).halted = s.halted := by unfold actOnBand; split <;> [skip; split] <;> simp
@[simp] theorem actOnBand_cycles (s : State) : (actOnBand s).cycles = s.cycles := by unfold actOnBand; split <;> [skip; split] <;> simp
@[simp] theorem actOnBand_cfg (s : State) : (actOnBand s).cfg = s.cfg := by unfold actOnBand; split <;> [skip; split] <;> simp

@[simp] theorem timingStep_pc (s : State) : (timingStep s).pc = s.pc := by simp [timingStep]
@[simp] theorem timingStep_sp (s : State) : (timingStep s).sp = s.sp := by simp [timingStep]
@[simp] theorem timingStep_a (s : State) : (timingStep s).a = s.a := by simp [timingStep]
@[simp] theorem timingStep_x (s : State) : (timingStep s).x = s.x := by simp [timingStep]
@[simp] theorem timingStep_y (s : State) : (timingStep s).y = s.y := by simp [timingStep]
@[simp] theorem timingStep_p (s : State) : (timingStep s).p = s.p := by simp [timingStep]
@[simp] theorem timingStep_registry (s : State) : (timingStep s).registry = s.registry := by simp [timingStep]
@[simp] theorem timingStep_halted (s : State) : (timingStep s).halted = s.halted := by simp [timingStep]
@[simp] theorem timingStep_cycles (s : State) : (timingStep s).cycles = s.cycles := by simp [timingStep]
@[simp] theorem timingStep_cfg (s : State) : (timingStep s).cfg = s.cfg := by simp [timingStep]

@[simp] theorem timingStep_counter (s : State) : (timingStep s).counter = nextCounter s.counter := by simp [timingStep]

@[simp] theorem timingSteps_pc (n : Nat) (s : State) : (timingSteps n s).pc = s.pc := by
  induction n generalizing s with
  | zero => rfl
  | succ n ih => simp [timingSteps, ih]

@[simp] theorem timingSteps_sp (n : Nat) (s : State) : (timingSteps n s).sp = s.sp := by
  induction n generalizing s with
  | zero => rfl
  | succ n ih => simp [timingSteps, ih]

@[simp] theorem timingSteps_a (n : Nat) (s : State) : (timingSteps n s).a = s.a := by
  induction n generalizing s with
  | zero => rfl
  | succ n ih => simp [timingSteps, ih]

@[simp] theorem timingSteps_x (n : Nat) (s : State) : (timingSteps n s).x = s.x := by
  induction n generalizing s with
  | zero => rfl
  | succ n ih => simp [timingSteps, ih]

@[simp] theorem timingSteps_y (n : Nat) (s : State) : (timingSteps n s).y = s.y := by
  induction n generalizing s with
  | zero => rfl
  | succ n ih => simp [timingSteps, ih]

@[simp] theorem timingSteps_p (n : Nat) (s : State) : (timingSteps n s).p = s.p := by
  induction n generalizing s with
  | zero => rfl
  | succ n ih => simp [timingSteps, ih]

@[simp] theorem timingSteps_registry (n : Nat) (s : State) : (timingSteps n s).registry = s.registry := by
  induction n generalizing s with
  | zero => rfl
  | succ n ih => simp [timingSteps, ih]

@[simp] theorem timingSteps_halted (n : Nat) (s : State) : (timingSteps n s).halted = s.halted := by
  induction n generalizing s with
  | zero => rfl
  | succ n ih => simp [timingSteps, ih]

@[simp] theorem timingSteps_cycles (n : Nat) (s : State) : (timingSteps n s).cycles = s.cycles := by
  induction n generalizing s with
  | zero => rfl
  | succ n ih => simp [timingSteps, ih]

@[simp] theorem timingSteps_cfg (n : Nat) (s : State) : (timingSteps n s).cfg = s.cfg := by
  induction n generalizing s with
  | zero => rfl
  | succ n ih => simp [timingSteps, ih]

@[simp] theorem runTiming_pc (s : State) : (runTiming s).pc = s.pc := by unfold runTiming; split <;> simp
@[simp] theorem runTiming_sp (s : State) : (runTiming s).sp = s.sp := by unfold runTiming; split <;> simp
@[simp] theorem runTiming_a (s : State) : (runTiming s).a = s.a := by unfold runTiming; split <;> simp
@[simp] theorem runTiming_x (s : State) : (runTiming s).x = s.x := by unfold runTiming; split <;> simp
@[simp] theorem runTiming_y (s : State) : (runTiming s).y = s.y := by unfold runTiming; split <;> simp
@[simp] theorem runTiming_p (s : State) : (runTiming s).p = s.p := by unfold runTiming; split <;> simp
@[simp] theorem runTiming_registry (s : State) : (runTiming s).registry = s.registry := by unfold runTiming; split <;> simp
@[simp] theorem runTiming_halted (s : State) : (runTiming s).halted = s.halted := by unfold runTiming; split <;> simp
@[simp] theorem runTiming_cycles (s : State) : (runTiming s).cycles = s.cycles := by unfold runTiming; split <;> simp
@[simp] theorem runTiming_cfg (s : State) : (runTiming s).cfg = s.cfg := by unfold runTiming; split <;> simp

end Sys2Proof.Machine
end

