-- ==== Sys2Proof/Laws/Ops.lean ====
section
/-! SUPPORT. For each shared operation of the bus, the stack and the operand forms, what it leaves at an address
and that it keeps the canonical form of memory. -/

namespace Sys2Proof.Machine

/-- Two addresses are equal as numbers exactly if they are equal. -/
theorem Word.toNat_eq_iff {a b : Word} : a.toNat = b.toNat ↔ a = b :=
  ⟨BitVec.eq_of_toNat_eq, fun h => h ▸ rfl⟩

/-- What a raw write leaves at an address. -/
theorem rawRead_rawWrite (a b : Word) (v : Byte) (s : State) :
    rawRead b (rawWrite a v s) = if b = a then v else rawRead b s := by
  simp only [rawRead, rawWrite, Memory.read_write, Word.toNat_eq_iff]

/-- A change of any field but memory changes no byte. -/
theorem rawRead_congr {s t : State} (h : t.mem = s.mem) (b : Word) : rawRead b t = rawRead b s := by
  unfold rawRead
  rw [h]

/-- An observer told of a write does nothing (R222). -/
@[simp] theorem Observer.act_write (o : Observer) (cfg : Config) (m : Memory) : o.act cfg false m = m := by
  cases o
  rfl

/-- The state after an observer was told of a write is the state before (R222). -/
@[simp] theorem notify_write (b : Word) (s : State) : notify b false s = s := by
  unfold notify
  split <;> simp

/-- A public write is the raw write: the one observer of the core does nothing on a write. -/
theorem memWrite_eq_rawWrite (b : Word) (v : Byte) (s : State) : memWrite b v s = rawWrite b v s := by
  simp [memWrite]

/-- What a public write leaves at an address. -/
theorem rawRead_memWrite (a b : Word) (v : Byte) (s : State) :
    rawRead b (memWrite a v s) = if b = a then v else rawRead b s := by
  rw [memWrite_eq_rawWrite, rawRead_rawWrite]

/-- What the status observer leaves at an address after a read (R221). -/
theorem read_act_read (cfg : Config) (m : Memory) (b : Word) :
    (Observer.status.act cfg true m).read b.toNat =
      if b = cfg.latchA ∨ b = cfg.latchB then 0x00
      else if b = cfg.statusAddr then m.read b.toNat &&& 0x7F
      else m.read b.toNat := by
  simp only [Observer.act, if_true, Memory.read_write, Word.toNat_eq_iff]
  by_cases hB : b = cfg.latchB
  · simp [hB]
  · by_cases hA : b = cfg.latchA
    · simp [hA]
    · by_cases hS : b = cfg.statusAddr
      · subst hS
        simp [hA, hB]
      · simp [hA, hB, hS]

/-- A public read of an address without an observer changes nothing. -/
theorem memRead_of_no_observer {b : Word} {s : State} (h : observerAt b s.registry = none) :
    (memRead b s).2 = s := by simp [memRead, notify, h]

/-- A public read of an address with the status observer changes memory as the observer says. -/
theorem memRead_of_status {b : Word} {s : State} (h : observerAt b s.registry = some .status) :
    (memRead b s).2 = { s with mem := Observer.status.act s.cfg true s.mem } := by simp [memRead, notify, h]

/-! ## The canonical form of memory -/

theorem act_wf (o : Observer) (cfg : Config) (rd : Bool) {m : Memory} (h : m.wf = true) :
    (o.act cfg rd m).wf = true := by
  cases o
  cases rd
  · exact h
  · simp only [Observer.act, if_true]
    exact Memory.wf_write_word _ _ (Memory.wf_write_word _ _ (Memory.wf_write_word _ _ h))

theorem rawWrite_wf (b : Word) (v : Byte) {s : State} (h : s.mem.wf = true) : (rawWrite b v s).mem.wf = true :=
  Memory.wf_write_word b v h

theorem notify_wf (b : Word) (rd : Bool) {s : State} (h : s.mem.wf = true) : (notify b rd s).mem.wf = true := by
  unfold notify
  split
  · next o _ => exact act_wf o s.cfg rd h
  · exact h

theorem memRead_wf (b : Word) {s : State} (h : s.mem.wf = true) : (memRead b s).2.mem.wf = true :=
  notify_wf b true h

theorem memWrite_wf (b : Word) (v : Byte) {s : State} (h : s.mem.wf = true) : (memWrite b v s).mem.wf = true :=
  notify_wf b false (rawWrite_wf b v h)

theorem fetch8_wf {s : State} (h : s.mem.wf = true) : (fetch8 s).2.mem.wf = true := memRead_wf s.pc h

theorem push_wf (v : Byte) {s : State} (h : s.mem.wf = true) : (push v s).mem.wf = true := memWrite_wf _ v h

theorem pop_wf {s : State} (h : s.mem.wf = true) : (pop s).2.mem.wf = true := memRead_wf (stackAddr (s.sp + 1)) h

theorem modifyAt_wf (f : Byte → Byte → Byte × Byte) (ea : Word) {s : State} (h : s.mem.wf = true) :
    (modifyAt f ea s).mem.wf = true := memWrite_wf _ _ (memRead_wf ea h)

/-! ## Fetching several bytes -/

@[simp] theorem fetchBytes_zero (s : State) : fetchBytes 0 s = ([], s) := rfl

theorem fetchBytes_succ (n : Nat) (s : State) :
    fetchBytes (n + 1) s =
      (rawRead s.pc s :: (fetchBytes n (fetch8 s).2).1, (fetchBytes n (fetch8 s).2).2) := rfl

theorem fetchBytes_length (n : Nat) (s : State) : (fetchBytes n s).1.length = n := by
  induction n generalizing s with
  | zero => rfl
  | succ n ih => simp [fetchBytes_succ, ih]

theorem fetchBytes_wf (n : Nat) {s : State} (h : s.mem.wf = true) : (fetchBytes n s).2.mem.wf = true := by
  induction n generalizing s with
  | zero => exact h
  | succ n ih => exact ih (fetch8_wf h)

/-- Fetching changes PC and memory only. -/
theorem fetchBytes_frame (n : Nat) (s : State) :
    (fetchBytes n s).2 = { s with pc := (fetchBytes n s).2.pc, mem := (fetchBytes n s).2.mem } := by
  induction n generalizing s with
  | zero => rfl
  | succ n ih =>
    rw [fetchBytes_succ]
    simp only
    rw [ih]
    simp

end Sys2Proof.Machine
end

