-- ==== Sys2Proof/Laws/Exec.lean ====
section
/-! SUPPORT. For each shared effect of the instructions and each operand form, one lemma for each field it leaves
unchanged, and one for each field it sets, so that a proof about an instruction unfolds its meaning alone. -/

namespace Sys2Proof.Machine

/-! ## Effects on a byte that was read -/

@[simp] theorem loadA_pc (r : Byte × State) : (loadA r).pc = r.2.pc := rfl
@[simp] theorem loadA_sp (r : Byte × State) : (loadA r).sp = r.2.sp := rfl
@[simp] theorem loadA_a (r : Byte × State) : (loadA r).a = r.1 := rfl
@[simp] theorem loadA_x (r : Byte × State) : (loadA r).x = r.2.x := rfl
@[simp] theorem loadA_y (r : Byte × State) : (loadA r).y = r.2.y := rfl
@[simp] theorem loadA_p (r : Byte × State) : (loadA r).p = setZN r.1 r.2.p := rfl
@[simp] theorem loadA_mem (r : Byte × State) : (loadA r).mem = r.2.mem := rfl
@[simp] theorem loadA_registry (r : Byte × State) : (loadA r).registry = r.2.registry := rfl
@[simp] theorem loadA_counter (r : Byte × State) : (loadA r).counter = r.2.counter := rfl
@[simp] theorem loadA_vblank (r : Byte × State) : (loadA r).vblank = r.2.vblank := rfl
@[simp] theorem loadA_halted (r : Byte × State) : (loadA r).halted = r.2.halted := rfl
@[simp] theorem loadA_cycles (r : Byte × State) : (loadA r).cycles = r.2.cycles := rfl
@[simp] theorem loadA_cfg (r : Byte × State) : (loadA r).cfg = r.2.cfg := rfl

@[simp] theorem loadX_pc (r : Byte × State) : (loadX r).pc = r.2.pc := rfl
@[simp] theorem loadX_sp (r : Byte × State) : (loadX r).sp = r.2.sp := rfl
@[simp] theorem loadX_a (r : Byte × State) : (loadX r).a = r.2.a := rfl
@[simp] theorem loadX_x (r : Byte × State) : (loadX r).x = r.1 := rfl
@[simp] theorem loadX_y (r : Byte × State) : (loadX r).y = r.2.y := rfl
@[simp] theorem loadX_p (r : Byte × State) : (loadX r).p = setZN r.1 r.2.p := rfl
@[simp] theorem loadX_mem (r : Byte × State) : (loadX r).mem = r.2.mem := rfl
@[simp] theorem loadX_registry (r : Byte × State) : (loadX r).registry = r.2.registry := rfl
@[simp] theorem loadX_counter (r : Byte × State) : (loadX r).counter = r.2.counter := rfl
@[simp] theorem loadX_vblank (r : Byte × State) : (loadX r).vblank = r.2.vblank := rfl
@[simp] theorem loadX_halted (r : Byte × State) : (loadX r).halted = r.2.halted := rfl
@[simp] theorem loadX_cycles (r : Byte × State) : (loadX r).cycles = r.2.cycles := rfl
@[simp] theorem loadX_cfg (r : Byte × State) : (loadX r).cfg = r.2.cfg := rfl

@[simp] theorem loadY_pc (r : Byte × State) : (loadY r).pc = r.2.pc := rfl
@[simp] theorem loadY_sp (r : Byte × State) : (loadY r).sp = r.2.sp := rfl
@[simp] theorem loadY_a (r : Byte × State) : (loadY r).a = r.2.a := rfl
@[simp] theorem loadY_x (r : Byte × State) : (loadY r).x = r.2.x := rfl
@[simp] theorem loadY_y (r : Byte × State) : (loadY r).y = r.1 := rfl
@[simp] theorem loadY_p (r : Byte × State) : (loadY r).p = setZN r.1 r.2.p := rfl
@[simp] theorem loadY_mem (r : Byte × State) : (loadY r).mem = r.2.mem := rfl
@[simp] theorem loadY_registry (r : Byte × State) : (loadY r).registry = r.2.registry := rfl
@[simp] theorem loadY_counter (r : Byte × State) : (loadY r).counter = r.2.counter := rfl
@[simp] theorem loadY_vblank (r : Byte × State) : (loadY r).vblank = r.2.vblank := rfl
@[simp] theorem loadY_halted (r : Byte × State) : (loadY r).halted = r.2.halted := rfl
@[simp] theorem loadY_cycles (r : Byte × State) : (loadY r).cycles = r.2.cycles := rfl
@[simp] theorem loadY_cfg (r : Byte × State) : (loadY r).cfg = r.2.cfg := rfl

@[simp] theorem addA_pc (r : Byte × State) : (addA r).pc = r.2.pc := rfl
@[simp] theorem addA_sp (r : Byte × State) : (addA r).sp = r.2.sp := rfl
@[simp] theorem addA_a (r : Byte × State) : (addA r).a = (addWithCarry r.2.a r.1 r.2.p).1 := rfl
@[simp] theorem addA_x (r : Byte × State) : (addA r).x = r.2.x := rfl
@[simp] theorem addA_y (r : Byte × State) : (addA r).y = r.2.y := rfl
@[simp] theorem addA_p (r : Byte × State) : (addA r).p = (addWithCarry r.2.a r.1 r.2.p).2 := rfl
@[simp] theorem addA_mem (r : Byte × State) : (addA r).mem = r.2.mem := rfl
@[simp] theorem addA_registry (r : Byte × State) : (addA r).registry = r.2.registry := rfl
@[simp] theorem addA_counter (r : Byte × State) : (addA r).counter = r.2.counter := rfl
@[simp] theorem addA_vblank (r : Byte × State) : (addA r).vblank = r.2.vblank := rfl
@[simp] theorem addA_halted (r : Byte × State) : (addA r).halted = r.2.halted := rfl
@[simp] theorem addA_cycles (r : Byte × State) : (addA r).cycles = r.2.cycles := rfl
@[simp] theorem addA_cfg (r : Byte × State) : (addA r).cfg = r.2.cfg := rfl

@[simp] theorem subtractA_pc (r : Byte × State) : (subtractA r).pc = r.2.pc := rfl
@[simp] theorem subtractA_sp (r : Byte × State) : (subtractA r).sp = r.2.sp := rfl
@[simp] theorem subtractA_a (r : Byte × State) : (subtractA r).a = (addWithCarry r.2.a (~~~r.1) r.2.p).1 := rfl
@[simp] theorem subtractA_x (r : Byte × State) : (subtractA r).x = r.2.x := rfl
@[simp] theorem subtractA_y (r : Byte × State) : (subtractA r).y = r.2.y := rfl
@[simp] theorem subtractA_p (r : Byte × State) : (subtractA r).p = (addWithCarry r.2.a (~~~r.1) r.2.p).2 := rfl
@[simp] theorem subtractA_mem (r : Byte × State) : (subtractA r).mem = r.2.mem := rfl
@[simp] theorem subtractA_registry (r : Byte × State) : (subtractA r).registry = r.2.registry := rfl
@[simp] theorem subtractA_counter (r : Byte × State) : (subtractA r).counter = r.2.counter := rfl
@[simp] theorem subtractA_vblank (r : Byte × State) : (subtractA r).vblank = r.2.vblank := rfl
@[simp] theorem subtractA_halted (r : Byte × State) : (subtractA r).halted = r.2.halted := rfl
@[simp] theorem subtractA_cycles (r : Byte × State) : (subtractA r).cycles = r.2.cycles := rfl
@[simp] theorem subtractA_cfg (r : Byte × State) : (subtractA r).cfg = r.2.cfg := rfl

@[simp] theorem compareA_pc (r : Byte × State) : (compareA r).pc = r.2.pc := rfl
@[simp] theorem compareA_sp (r : Byte × State) : (compareA r).sp = r.2.sp := rfl
@[simp] theorem compareA_a (r : Byte × State) : (compareA r).a = r.2.a := rfl
@[simp] theorem compareA_x (r : Byte × State) : (compareA r).x = r.2.x := rfl
@[simp] theorem compareA_y (r : Byte × State) : (compareA r).y = r.2.y := rfl
@[simp] theorem compareA_p (r : Byte × State) : (compareA r).p = compareFlags r.2.a r.1 r.2.p := rfl
@[simp] theorem compareA_mem (r : Byte × State) : (compareA r).mem = r.2.mem := rfl
@[simp] theorem compareA_registry (r : Byte × State) : (compareA r).registry = r.2.registry := rfl
@[simp] theorem compareA_counter (r : Byte × State) : (compareA r).counter = r.2.counter := rfl
@[simp] theorem compareA_vblank (r : Byte × State) : (compareA r).vblank = r.2.vblank := rfl
@[simp] theorem compareA_halted (r : Byte × State) : (compareA r).halted = r.2.halted := rfl
@[simp] theorem compareA_cycles (r : Byte × State) : (compareA r).cycles = r.2.cycles := rfl
@[simp] theorem compareA_cfg (r : Byte × State) : (compareA r).cfg = r.2.cfg := rfl

@[simp] theorem compareX_pc (r : Byte × State) : (compareX r).pc = r.2.pc := rfl
@[simp] theorem compareX_sp (r : Byte × State) : (compareX r).sp = r.2.sp := rfl
@[simp] theorem compareX_a (r : Byte × State) : (compareX r).a = r.2.a := rfl
@[simp] theorem compareX_x (r : Byte × State) : (compareX r).x = r.2.x := rfl
@[simp] theorem compareX_y (r : Byte × State) : (compareX r).y = r.2.y := rfl
@[simp] theorem compareX_p (r : Byte × State) : (compareX r).p = compareFlags r.2.x r.1 r.2.p := rfl
@[simp] theorem compareX_mem (r : Byte × State) : (compareX r).mem = r.2.mem := rfl
@[simp] theorem compareX_registry (r : Byte × State) : (compareX r).registry = r.2.registry := rfl
@[simp] theorem compareX_counter (r : Byte × State) : (compareX r).counter = r.2.counter := rfl
@[simp] theorem compareX_vblank (r : Byte × State) : (compareX r).vblank = r.2.vblank := rfl
@[simp] theorem compareX_halted (r : Byte × State) : (compareX r).halted = r.2.halted := rfl
@[simp] theorem compareX_cycles (r : Byte × State) : (compareX r).cycles = r.2.cycles := rfl
@[simp] theorem compareX_cfg (r : Byte × State) : (compareX r).cfg = r.2.cfg := rfl

@[simp] theorem compareY_pc (r : Byte × State) : (compareY r).pc = r.2.pc := rfl
@[simp] theorem compareY_sp (r : Byte × State) : (compareY r).sp = r.2.sp := rfl
@[simp] theorem compareY_a (r : Byte × State) : (compareY r).a = r.2.a := rfl
@[simp] theorem compareY_x (r : Byte × State) : (compareY r).x = r.2.x := rfl
@[simp] theorem compareY_y (r : Byte × State) : (compareY r).y = r.2.y := rfl
@[simp] theorem compareY_p (r : Byte × State) : (compareY r).p = compareFlags r.2.y r.1 r.2.p := rfl
@[simp] theorem compareY_mem (r : Byte × State) : (compareY r).mem = r.2.mem := rfl
@[simp] theorem compareY_registry (r : Byte × State) : (compareY r).registry = r.2.registry := rfl
@[simp] theorem compareY_counter (r : Byte × State) : (compareY r).counter = r.2.counter := rfl
@[simp] theorem compareY_vblank (r : Byte × State) : (compareY r).vblank = r.2.vblank := rfl
@[simp] theorem compareY_halted (r : Byte × State) : (compareY r).halted = r.2.halted := rfl
@[simp] theorem compareY_cycles (r : Byte × State) : (compareY r).cycles = r.2.cycles := rfl
@[simp] theorem compareY_cfg (r : Byte × State) : (compareY r).cfg = r.2.cfg := rfl

@[simp] theorem bitTestA_pc (r : Byte × State) : (bitTestA r).pc = r.2.pc := rfl
@[simp] theorem bitTestA_sp (r : Byte × State) : (bitTestA r).sp = r.2.sp := rfl
@[simp] theorem bitTestA_a (r : Byte × State) : (bitTestA r).a = r.2.a := rfl
@[simp] theorem bitTestA_x (r : Byte × State) : (bitTestA r).x = r.2.x := rfl
@[simp] theorem bitTestA_y (r : Byte × State) : (bitTestA r).y = r.2.y := rfl
@[simp] theorem bitTestA_p (r : Byte × State) : (bitTestA r).p = bitTestFlags r.2.a r.1 r.2.p := rfl
@[simp] theorem bitTestA_mem (r : Byte × State) : (bitTestA r).mem = r.2.mem := rfl
@[simp] theorem bitTestA_registry (r : Byte × State) : (bitTestA r).registry = r.2.registry := rfl
@[simp] theorem bitTestA_counter (r : Byte × State) : (bitTestA r).counter = r.2.counter := rfl
@[simp] theorem bitTestA_vblank (r : Byte × State) : (bitTestA r).vblank = r.2.vblank := rfl
@[simp] theorem bitTestA_halted (r : Byte × State) : (bitTestA r).halted = r.2.halted := rfl
@[simp] theorem bitTestA_cycles (r : Byte × State) : (bitTestA r).cycles = r.2.cycles := rfl
@[simp] theorem bitTestA_cfg (r : Byte × State) : (bitTestA r).cfg = r.2.cfg := rfl

@[simp] theorem andA_pc (r : Byte × State) : (andA r).pc = r.2.pc := rfl
@[simp] theorem andA_sp (r : Byte × State) : (andA r).sp = r.2.sp := rfl
@[simp] theorem andA_a (r : Byte × State) : (andA r).a = r.2.a &&& r.1 := rfl
@[simp] theorem andA_x (r : Byte × State) : (andA r).x = r.2.x := rfl
@[simp] theorem andA_y (r : Byte × State) : (andA r).y = r.2.y := rfl
@[simp] theorem andA_p (r : Byte × State) : (andA r).p = setZN (r.2.a &&& r.1) r.2.p := rfl
@[simp] theorem andA_mem (r : Byte × State) : (andA r).mem = r.2.mem := rfl
@[simp] theorem andA_registry (r : Byte × State) : (andA r).registry = r.2.registry := rfl
@[simp] theorem andA_counter (r : Byte × State) : (andA r).counter = r.2.counter := rfl
@[simp] theorem andA_vblank (r : Byte × State) : (andA r).vblank = r.2.vblank := rfl
@[simp] theorem andA_halted (r : Byte × State) : (andA r).halted = r.2.halted := rfl
@[simp] theorem andA_cycles (r : Byte × State) : (andA r).cycles = r.2.cycles := rfl
@[simp] theorem andA_cfg (r : Byte × State) : (andA r).cfg = r.2.cfg := rfl

@[simp] theorem orA_pc (r : Byte × State) : (orA r).pc = r.2.pc := rfl
@[simp] theorem orA_sp (r : Byte × State) : (orA r).sp = r.2.sp := rfl
@[simp] theorem orA_a (r : Byte × State) : (orA r).a = r.2.a ||| r.1 := rfl
@[simp] theorem orA_x (r : Byte × State) : (orA r).x = r.2.x := rfl
@[simp] theorem orA_y (r : Byte × State) : (orA r).y = r.2.y := rfl
@[simp] theorem orA_p (r : Byte × State) : (orA r).p = setZN (r.2.a ||| r.1) r.2.p := rfl
@[simp] theorem orA_mem (r : Byte × State) : (orA r).mem = r.2.mem := rfl
@[simp] theorem orA_registry (r : Byte × State) : (orA r).registry = r.2.registry := rfl
@[simp] theorem orA_counter (r : Byte × State) : (orA r).counter = r.2.counter := rfl
@[simp] theorem orA_vblank (r : Byte × State) : (orA r).vblank = r.2.vblank := rfl
@[simp] theorem orA_halted (r : Byte × State) : (orA r).halted = r.2.halted := rfl
@[simp] theorem orA_cycles (r : Byte × State) : (orA r).cycles = r.2.cycles := rfl
@[simp] theorem orA_cfg (r : Byte × State) : (orA r).cfg = r.2.cfg := rfl

@[simp] theorem xorA_pc (r : Byte × State) : (xorA r).pc = r.2.pc := rfl
@[simp] theorem xorA_sp (r : Byte × State) : (xorA r).sp = r.2.sp := rfl
@[simp] theorem xorA_a (r : Byte × State) : (xorA r).a = r.2.a ^^^ r.1 := rfl
@[simp] theorem xorA_x (r : Byte × State) : (xorA r).x = r.2.x := rfl
@[simp] theorem xorA_y (r : Byte × State) : (xorA r).y = r.2.y := rfl
@[simp] theorem xorA_p (r : Byte × State) : (xorA r).p = setZN (r.2.a ^^^ r.1) r.2.p := rfl
@[simp] theorem xorA_mem (r : Byte × State) : (xorA r).mem = r.2.mem := rfl
@[simp] theorem xorA_registry (r : Byte × State) : (xorA r).registry = r.2.registry := rfl
@[simp] theorem xorA_counter (r : Byte × State) : (xorA r).counter = r.2.counter := rfl
@[simp] theorem xorA_vblank (r : Byte × State) : (xorA r).vblank = r.2.vblank := rfl
@[simp] theorem xorA_halted (r : Byte × State) : (xorA r).halted = r.2.halted := rfl
@[simp] theorem xorA_cycles (r : Byte × State) : (xorA r).cycles = r.2.cycles := rfl
@[simp] theorem xorA_cfg (r : Byte × State) : (xorA r).cfg = r.2.cfg := rfl

/-! ## Operand forms -/

@[simp] theorem readZp_fst (z : Byte) (s : State) : (readZp z s).1 = rawRead (zpAddr z) s := rfl
@[simp] theorem readZp_pc (z : Byte) (s : State) : (readZp z s).2.pc = s.pc := by simp [readZp]
@[simp] theorem readZp_sp (z : Byte) (s : State) : (readZp z s).2.sp = s.sp := by simp [readZp]
@[simp] theorem readZp_a (z : Byte) (s : State) : (readZp z s).2.a = s.a := by simp [readZp]
@[simp] theorem readZp_x (z : Byte) (s : State) : (readZp z s).2.x = s.x := by simp [readZp]
@[simp] theorem readZp_y (z : Byte) (s : State) : (readZp z s).2.y = s.y := by simp [readZp]
@[simp] theorem readZp_p (z : Byte) (s : State) : (readZp z s).2.p = s.p := by simp [readZp]
@[simp] theorem readZp_registry (z : Byte) (s : State) : (readZp z s).2.registry = s.registry := by simp [readZp]
@[simp] theorem readZp_counter (z : Byte) (s : State) : (readZp z s).2.counter = s.counter := by simp [readZp]
@[simp] theorem readZp_vblank (z : Byte) (s : State) : (readZp z s).2.vblank = s.vblank := by simp [readZp]
@[simp] theorem readZp_halted (z : Byte) (s : State) : (readZp z s).2.halted = s.halted := by simp [readZp]
@[simp] theorem readZp_cycles (z : Byte) (s : State) : (readZp z s).2.cycles = s.cycles := by simp [readZp]
@[simp] theorem readZp_cfg (z : Byte) (s : State) : (readZp z s).2.cfg = s.cfg := by simp [readZp]

@[simp] theorem readAbs_fst (a : Word) (s : State) : (readAbs a s).1 = rawRead a s := rfl
@[simp] theorem readAbs_pc (a : Word) (s : State) : (readAbs a s).2.pc = s.pc := by simp [readAbs]
@[simp] theorem readAbs_sp (a : Word) (s : State) : (readAbs a s).2.sp = s.sp := by simp [readAbs]
@[simp] theorem readAbs_a (a : Word) (s : State) : (readAbs a s).2.a = s.a := by simp [readAbs]
@[simp] theorem readAbs_x (a : Word) (s : State) : (readAbs a s).2.x = s.x := by simp [readAbs]
@[simp] theorem readAbs_y (a : Word) (s : State) : (readAbs a s).2.y = s.y := by simp [readAbs]
@[simp] theorem readAbs_p (a : Word) (s : State) : (readAbs a s).2.p = s.p := by simp [readAbs]
@[simp] theorem readAbs_registry (a : Word) (s : State) : (readAbs a s).2.registry = s.registry := by simp [readAbs]
@[simp] theorem readAbs_counter (a : Word) (s : State) : (readAbs a s).2.counter = s.counter := by simp [readAbs]
@[simp] theorem readAbs_vblank (a : Word) (s : State) : (readAbs a s).2.vblank = s.vblank := by simp [readAbs]
@[simp] theorem readAbs_halted (a : Word) (s : State) : (readAbs a s).2.halted = s.halted := by simp [readAbs]
@[simp] theorem readAbs_cycles (a : Word) (s : State) : (readAbs a s).2.cycles = s.cycles := by simp [readAbs]
@[simp] theorem readAbs_cfg (a : Word) (s : State) : (readAbs a s).2.cfg = s.cfg := by simp [readAbs]

@[simp] theorem readAbsX_fst (op : Byte) (base : Word) (s : State) : (readAbsX op base s).1 = rawRead (absXAddr base s) s := rawRead_congr (by simp) _
@[simp] theorem readAbsX_pc (op : Byte) (base : Word) (s : State) : (readAbsX op base s).2.pc = s.pc := by simp [readAbsX]
@[simp] theorem readAbsX_sp (op : Byte) (base : Word) (s : State) : (readAbsX op base s).2.sp = s.sp := by simp [readAbsX]
@[simp] theorem readAbsX_a (op : Byte) (base : Word) (s : State) : (readAbsX op base s).2.a = s.a := by simp [readAbsX]
@[simp] theorem readAbsX_x (op : Byte) (base : Word) (s : State) : (readAbsX op base s).2.x = s.x := by simp [readAbsX]
@[simp] theorem readAbsX_y (op : Byte) (base : Word) (s : State) : (readAbsX op base s).2.y = s.y := by simp [readAbsX]
@[simp] theorem readAbsX_p (op : Byte) (base : Word) (s : State) : (readAbsX op base s).2.p = s.p := by simp [readAbsX]
@[simp] theorem readAbsX_registry (op : Byte) (base : Word) (s : State) : (readAbsX op base s).2.registry = s.registry := by simp [readAbsX]
@[simp] theorem readAbsX_counter (op : Byte) (base : Word) (s : State) : (readAbsX op base s).2.counter = s.counter := by simp [readAbsX]
@[simp] theorem readAbsX_vblank (op : Byte) (base : Word) (s : State) : (readAbsX op base s).2.vblank = s.vblank := by simp [readAbsX]
@[simp] theorem readAbsX_halted (op : Byte) (base : Word) (s : State) : (readAbsX op base s).2.halted = s.halted := by simp [readAbsX]
@[simp] theorem readAbsX_cfg (op : Byte) (base : Word) (s : State) : (readAbsX op base s).2.cfg = s.cfg := by simp [readAbsX]

@[simp] theorem writeZp_pc (z v : Byte) (s : State) : (writeZp z v s).pc = s.pc := by simp [writeZp]
@[simp] theorem writeZp_sp (z v : Byte) (s : State) : (writeZp z v s).sp = s.sp := by simp [writeZp]
@[simp] theorem writeZp_a (z v : Byte) (s : State) : (writeZp z v s).a = s.a := by simp [writeZp]
@[simp] theorem writeZp_x (z v : Byte) (s : State) : (writeZp z v s).x = s.x := by simp [writeZp]
@[simp] theorem writeZp_y (z v : Byte) (s : State) : (writeZp z v s).y = s.y := by simp [writeZp]
@[simp] theorem writeZp_p (z v : Byte) (s : State) : (writeZp z v s).p = s.p := by simp [writeZp]
@[simp] theorem writeZp_registry (z v : Byte) (s : State) : (writeZp z v s).registry = s.registry := by simp [writeZp]
@[simp] theorem writeZp_counter (z v : Byte) (s : State) : (writeZp z v s).counter = s.counter := by simp [writeZp]
@[simp] theorem writeZp_vblank (z v : Byte) (s : State) : (writeZp z v s).vblank = s.vblank := by simp [writeZp]
@[simp] theorem writeZp_halted (z v : Byte) (s : State) : (writeZp z v s).halted = s.halted := by simp [writeZp]
@[simp] theorem writeZp_cycles (z v : Byte) (s : State) : (writeZp z v s).cycles = s.cycles := by simp [writeZp]
@[simp] theorem writeZp_cfg (z v : Byte) (s : State) : (writeZp z v s).cfg = s.cfg := by simp [writeZp]

@[simp] theorem writeAbs_pc (a : Word) (v : Byte) (s : State) : (writeAbs a v s).pc = s.pc := by simp [writeAbs]
@[simp] theorem writeAbs_sp (a : Word) (v : Byte) (s : State) : (writeAbs a v s).sp = s.sp := by simp [writeAbs]
@[simp] theorem writeAbs_a (a : Word) (v : Byte) (s : State) : (writeAbs a v s).a = s.a := by simp [writeAbs]
@[simp] theorem writeAbs_x (a : Word) (v : Byte) (s : State) : (writeAbs a v s).x = s.x := by simp [writeAbs]
@[simp] theorem writeAbs_y (a : Word) (v : Byte) (s : State) : (writeAbs a v s).y = s.y := by simp [writeAbs]
@[simp] theorem writeAbs_p (a : Word) (v : Byte) (s : State) : (writeAbs a v s).p = s.p := by simp [writeAbs]
@[simp] theorem writeAbs_registry (a : Word) (v : Byte) (s : State) : (writeAbs a v s).registry = s.registry := by simp [writeAbs]
@[simp] theorem writeAbs_counter (a : Word) (v : Byte) (s : State) : (writeAbs a v s).counter = s.counter := by simp [writeAbs]
@[simp] theorem writeAbs_vblank (a : Word) (v : Byte) (s : State) : (writeAbs a v s).vblank = s.vblank := by simp [writeAbs]
@[simp] theorem writeAbs_halted (a : Word) (v : Byte) (s : State) : (writeAbs a v s).halted = s.halted := by simp [writeAbs]
@[simp] theorem writeAbs_cycles (a : Word) (v : Byte) (s : State) : (writeAbs a v s).cycles = s.cycles := by simp [writeAbs]
@[simp] theorem writeAbs_cfg (a : Word) (v : Byte) (s : State) : (writeAbs a v s).cfg = s.cfg := by simp [writeAbs]

@[simp] theorem writeAbsX_pc (op : Byte) (base : Word) (v : Byte) (s : State) : (writeAbsX op base v s).pc = s.pc := by simp [writeAbsX]
@[simp] theorem writeAbsX_sp (op : Byte) (base : Word) (v : Byte) (s : State) : (writeAbsX op base v s).sp = s.sp := by simp [writeAbsX]
@[simp] theorem writeAbsX_a (op : Byte) (base : Word) (v : Byte) (s : State) : (writeAbsX op base v s).a = s.a := by simp [writeAbsX]
@[simp] theorem writeAbsX_x (op : Byte) (base : Word) (v : Byte) (s : State) : (writeAbsX op base v s).x = s.x := by simp [writeAbsX]
@[simp] theorem writeAbsX_y (op : Byte) (base : Word) (v : Byte) (s : State) : (writeAbsX op base v s).y = s.y := by simp [writeAbsX]
@[simp] theorem writeAbsX_p (op : Byte) (base : Word) (v : Byte) (s : State) : (writeAbsX op base v s).p = s.p := by simp [writeAbsX]
@[simp] theorem writeAbsX_registry (op : Byte) (base : Word) (v : Byte) (s : State) : (writeAbsX op base v s).registry = s.registry := by simp [writeAbsX]
@[simp] theorem writeAbsX_counter (op : Byte) (base : Word) (v : Byte) (s : State) : (writeAbsX op base v s).counter = s.counter := by simp [writeAbsX]
@[simp] theorem writeAbsX_vblank (op : Byte) (base : Word) (v : Byte) (s : State) : (writeAbsX op base v s).vblank = s.vblank := by simp [writeAbsX]
@[simp] theorem writeAbsX_halted (op : Byte) (base : Word) (v : Byte) (s : State) : (writeAbsX op base v s).halted = s.halted := by simp [writeAbsX]
@[simp] theorem writeAbsX_cfg (op : Byte) (base : Word) (v : Byte) (s : State) : (writeAbsX op base v s).cfg = s.cfg := by simp [writeAbsX]

@[simp] theorem modifyAt_p (f : Byte → Byte → Byte × Byte) (ea : Word) (s : State) :
    (modifyAt f ea s).p = (f (rawRead ea s) s.p).2 := by simp [modifyAt]

@[simp] theorem modifyZp_pc (f : Byte → Byte → Byte × Byte) (z : Byte) (s : State) :
    (modifyZp f z s).pc = s.pc := by simp [modifyZp]
@[simp] theorem modifyZp_sp (f : Byte → Byte → Byte × Byte) (z : Byte) (s : State) :
    (modifyZp f z s).sp = s.sp := by simp [modifyZp]
@[simp] theorem modifyZp_a (f : Byte → Byte → Byte × Byte) (z : Byte) (s : State) :
    (modifyZp f z s).a = s.a := by simp [modifyZp]
@[simp] theorem modifyZp_x (f : Byte → Byte → Byte × Byte) (z : Byte) (s : State) :
    (modifyZp f z s).x = s.x := by simp [modifyZp]
@[simp] theorem modifyZp_y (f : Byte → Byte → Byte × Byte) (z : Byte) (s : State) :
    (modifyZp f z s).y = s.y := by simp [modifyZp]
@[simp] theorem modifyZp_p (f : Byte → Byte → Byte × Byte) (z : Byte) (s : State) :
    (modifyZp f z s).p = (f (rawRead (zpAddr z) s) s.p).2 := by simp [modifyZp]
@[simp] theorem modifyZp_registry (f : Byte → Byte → Byte × Byte) (z : Byte) (s : State) :
    (modifyZp f z s).registry = s.registry := by simp [modifyZp]
@[simp] theorem modifyZp_counter (f : Byte → Byte → Byte × Byte) (z : Byte) (s : State) :
    (modifyZp f z s).counter = s.counter := by simp [modifyZp]
@[simp] theorem modifyZp_vblank (f : Byte → Byte → Byte × Byte) (z : Byte) (s : State) :
    (modifyZp f z s).vblank = s.vblank := by simp [modifyZp]
@[simp] theorem modifyZp_halted (f : Byte → Byte → Byte × Byte) (z : Byte) (s : State) :
    (modifyZp f z s).halted = s.halted := by simp [modifyZp]
@[simp] theorem modifyZp_cycles (f : Byte → Byte → Byte × Byte) (z : Byte) (s : State) :
    (modifyZp f z s).cycles = s.cycles := by simp [modifyZp]
@[simp] theorem modifyZp_cfg (f : Byte → Byte → Byte × Byte) (z : Byte) (s : State) :
    (modifyZp f z s).cfg = s.cfg := by simp [modifyZp]

@[simp] theorem modifyAbs_pc (f : Byte → Byte → Byte × Byte) (a : Word) (s : State) :
    (modifyAbs f a s).pc = s.pc := by simp [modifyAbs]
@[simp] theorem modifyAbs_sp (f : Byte → Byte → Byte × Byte) (a : Word) (s : State) :
    (modifyAbs f a s).sp = s.sp := by simp [modifyAbs]
@[simp] theorem modifyAbs_a (f : Byte → Byte → Byte × Byte) (a : Word) (s : State) :
    (modifyAbs f a s).a = s.a := by simp [modifyAbs]
@[simp] theorem modifyAbs_x (f : Byte → Byte → Byte × Byte) (a : Word) (s : State) :
    (modifyAbs f a s).x = s.x := by simp [modifyAbs]
@[simp] theorem modifyAbs_y (f : Byte → Byte → Byte × Byte) (a : Word) (s : State) :
    (modifyAbs f a s).y = s.y := by simp [modifyAbs]
@[simp] theorem modifyAbs_p (f : Byte → Byte → Byte × Byte) (a : Word) (s : State) :
    (modifyAbs f a s).p = (f (rawRead a s) s.p).2 := by simp [modifyAbs]
@[simp] theorem modifyAbs_registry (f : Byte → Byte → Byte × Byte) (a : Word) (s : State) :
    (modifyAbs f a s).registry = s.registry := by simp [modifyAbs]
@[simp] theorem modifyAbs_counter (f : Byte → Byte → Byte × Byte) (a : Word) (s : State) :
    (modifyAbs f a s).counter = s.counter := by simp [modifyAbs]
@[simp] theorem modifyAbs_vblank (f : Byte → Byte → Byte × Byte) (a : Word) (s : State) :
    (modifyAbs f a s).vblank = s.vblank := by simp [modifyAbs]
@[simp] theorem modifyAbs_halted (f : Byte → Byte → Byte × Byte) (a : Word) (s : State) :
    (modifyAbs f a s).halted = s.halted := by simp [modifyAbs]
@[simp] theorem modifyAbs_cycles (f : Byte → Byte → Byte × Byte) (a : Word) (s : State) :
    (modifyAbs f a s).cycles = s.cycles := by simp [modifyAbs]
@[simp] theorem modifyAbs_cfg (f : Byte → Byte → Byte × Byte) (a : Word) (s : State) :
    (modifyAbs f a s).cfg = s.cfg := by simp [modifyAbs]

@[simp] theorem modifyAbsX_pc (op : Byte) (f : Byte → Byte → Byte × Byte) (base : Word) (s : State) :
    (modifyAbsX op f base s).pc = s.pc := by simp [modifyAbsX]
@[simp] theorem modifyAbsX_sp (op : Byte) (f : Byte → Byte → Byte × Byte) (base : Word) (s : State) :
    (modifyAbsX op f base s).sp = s.sp := by simp [modifyAbsX]
@[simp] theorem modifyAbsX_a (op : Byte) (f : Byte → Byte → Byte × Byte) (base : Word) (s : State) :
    (modifyAbsX op f base s).a = s.a := by simp [modifyAbsX]
@[simp] theorem modifyAbsX_x (op : Byte) (f : Byte → Byte → Byte × Byte) (base : Word) (s : State) :
    (modifyAbsX op f base s).x = s.x := by simp [modifyAbsX]
@[simp] theorem modifyAbsX_y (op : Byte) (f : Byte → Byte → Byte × Byte) (base : Word) (s : State) :
    (modifyAbsX op f base s).y = s.y := by simp [modifyAbsX]
@[simp] theorem modifyAbsX_p (op : Byte) (f : Byte → Byte → Byte × Byte) (base : Word) (s : State) :
    (modifyAbsX op f base s).p = (f (rawRead (absXAddr base s) s) s.p).2 := by simp [modifyAbsX, rawRead_congr (absXPenalty_mem _ _ _)]
@[simp] theorem modifyAbsX_registry (op : Byte) (f : Byte → Byte → Byte × Byte) (base : Word) (s : State) :
    (modifyAbsX op f base s).registry = s.registry := by simp [modifyAbsX]
@[simp] theorem modifyAbsX_counter (op : Byte) (f : Byte → Byte → Byte × Byte) (base : Word) (s : State) :
    (modifyAbsX op f base s).counter = s.counter := by simp [modifyAbsX]
@[simp] theorem modifyAbsX_vblank (op : Byte) (f : Byte → Byte → Byte × Byte) (base : Word) (s : State) :
    (modifyAbsX op f base s).vblank = s.vblank := by simp [modifyAbsX]
@[simp] theorem modifyAbsX_halted (op : Byte) (f : Byte → Byte → Byte × Byte) (base : Word) (s : State) :
    (modifyAbsX op f base s).halted = s.halted := by simp [modifyAbsX]
@[simp] theorem modifyAbsX_cfg (op : Byte) (f : Byte → Byte → Byte × Byte) (base : Word) (s : State) :
    (modifyAbsX op f base s).cfg = s.cfg := by simp [modifyAbsX]

@[simp] theorem modifyA_pc (f : Byte → Byte → Byte × Byte) (s : State) : (modifyA f s).pc = s.pc := rfl
@[simp] theorem modifyA_sp (f : Byte → Byte → Byte × Byte) (s : State) : (modifyA f s).sp = s.sp := rfl
@[simp] theorem modifyA_a (f : Byte → Byte → Byte × Byte) (s : State) : (modifyA f s).a = (f s.a s.p).1 := rfl
@[simp] theorem modifyA_x (f : Byte → Byte → Byte × Byte) (s : State) : (modifyA f s).x = s.x := rfl
@[simp] theorem modifyA_y (f : Byte → Byte → Byte × Byte) (s : State) : (modifyA f s).y = s.y := rfl
@[simp] theorem modifyA_p (f : Byte → Byte → Byte × Byte) (s : State) : (modifyA f s).p = (f s.a s.p).2 := rfl
@[simp] theorem modifyA_mem (f : Byte → Byte → Byte × Byte) (s : State) : (modifyA f s).mem = s.mem := rfl
@[simp] theorem modifyA_registry (f : Byte → Byte → Byte × Byte) (s : State) : (modifyA f s).registry = s.registry := rfl
@[simp] theorem modifyA_counter (f : Byte → Byte → Byte × Byte) (s : State) : (modifyA f s).counter = s.counter := rfl
@[simp] theorem modifyA_vblank (f : Byte → Byte → Byte × Byte) (s : State) : (modifyA f s).vblank = s.vblank := rfl
@[simp] theorem modifyA_halted (f : Byte → Byte → Byte × Byte) (s : State) : (modifyA f s).halted = s.halted := rfl
@[simp] theorem modifyA_cycles (f : Byte → Byte → Byte × Byte) (s : State) : (modifyA f s).cycles = s.cycles := rfl
@[simp] theorem modifyA_cfg (f : Byte → Byte → Byte × Byte) (s : State) : (modifyA f s).cfg = s.cfg := rfl

end Sys2Proof.Machine
end

