-- ==== Sys2Proof/Laws/Flags.lean ====
section
/-! SUPPORT. The laws of the status byte: what writing one flag does to every bit, and what each flag computation
of Machine/Flags.lean gives. -/

namespace Sys2Proof.Machine

/-- Every bit of a status byte after one flag was written. -/
theorem putFlag_bit (f : Flag) (b : Bool) (p : Byte) (k : Nat) :
    (putFlag f b p).getLsbD k = if k = f.bit then b else p.getLsbD k := by
  by_cases hk : k < 8
  · cases f <;> cases b <;> simp only [putFlag, Flag.bit] <;> interval_cases k <;> simp
  · have h1 : k ≠ f.bit := by cases f <;> simp only [Flag.bit] <;> omega
    rw [if_neg h1, BitVec.getLsbD_of_ge _ _ (by omega), BitVec.getLsbD_of_ge _ _ (by omega)]

@[simp] theorem getFlag_putFlag_same (f : Flag) (b : Bool) (p : Byte) : getFlag f (putFlag f b p) = b := by
  simp [getFlag, putFlag_bit]

/-- Distinct flags have distinct bit positions (R26). -/
theorem Flag.bit_injective {f g : Flag} (h : f.bit = g.bit) : f = g := by
  cases f <;> cases g <;> simp_all [Flag.bit]

theorem getFlag_putFlag_ne {f g : Flag} (b : Bool) (p : Byte) (h : g ≠ f) :
    getFlag g (putFlag f b p) = getFlag g p := by
  rw [getFlag, putFlag_bit, if_neg fun he => h (Flag.bit_injective he), getFlag]

/-- Every bit of a status byte after SetZN (R111). -/
theorem setZN_bit (v p : Byte) (k : Nat) :
    (setZN v p).getLsbD k = if k = 7 then v.msb else if k = 1 then v == 0 else p.getLsbD k := by
  simp only [setZN, putFlag_bit]
  rfl

/-- Every bit of a status byte after a compare (R112). -/
theorem compareFlags_bit (r m p : Byte) (k : Nat) :
    (compareFlags r m p).getLsbD k =
      if k = 7 then (r - m).msb else if k = 1 then r - m == 0 else if k = 0 then decide (m ≤ r) else p.getLsbD k := by
  simp only [compareFlags, setZN_bit, putFlag_bit]
  rfl

/-- The sum of an addition with carry (R113). -/
theorem addWithCarry_fst (a m p : Byte) :
    (addWithCarry a m p).1 = BitVec.ofNat 8 (a.toNat + m.toNat + carryIn p) := rfl

/-- Every bit of a status byte after an addition with carry (R113). -/
theorem addWithCarry_bit (a m p : Byte) (k : Nat) :
    (addWithCarry a m p).2.getLsbD k =
      if k = 7 then (addWithCarry a m p).1.msb
      else if k = 1 then (addWithCarry a m p).1 == 0
      else if k = 6 then a.msb == m.msb && (addWithCarry a m p).1.msb != a.msb
      else if k = 0 then decide (0xFF < a.toNat + m.toNat + carryIn p)
      else p.getLsbD k := by
  simp only [addWithCarry, setZN_bit, putFlag_bit]
  rfl

/-- Every bit of a status byte after a bit test (R145). -/
theorem bitTestFlags_bit (a m p : Byte) (k : Nat) :
    (bitTestFlags a m p).getLsbD k =
      if k = 6 then m.getLsbD 6 else if k = 7 then m.getLsbD 7 else if k = 1 then a &&& m == 0
      else p.getLsbD k := by
  simp only [bitTestFlags, putFlag_bit]
  rfl

/-- Every bit of a status byte after PLP loaded it (R179). -/
theorem pulledStatus_bit (v : Byte) (k : Nat) :
    (pulledStatus v).getLsbD k = if k = 4 then false else if k = 5 then true else v.getLsbD k := by
  by_cases hk : k < 8
  · simp only [pulledStatus]
    interval_cases k <;> simp
  · rw [if_neg (by omega), if_neg (by omega), BitVec.getLsbD_of_ge _ _ (by omega), BitVec.getLsbD_of_ge _ _ (by omega)]

/-- Every bit of the copy PHP pushes (R178). -/
theorem pushedStatus_bit (p : Byte) (k : Nat) :
    (pushedStatus p).getLsbD k = if k = 4 then true else if k = 5 then true else p.getLsbD k := by
  by_cases hk : k < 8
  · simp only [pushedStatus]
    interval_cases k <;> simp
  · rw [if_neg (by omega), if_neg (by omega), BitVec.getLsbD_of_ge _ _ (by omega), BitVec.getLsbD_of_ge _ _ (by omega)]

end Sys2Proof.Machine
end

