-- ==== Sys2Proof/Laws/PerInstr.lean ====
section
/-! SUPPORT. Statements made for each instruction. `OpcodeRow`: the instruction's opcode byte has a row of the
reference table (R86), and the table gives it as many operand bytes as the encoder writes (R84). -/

namespace Sys2Proof.Laws.OpcodeRow

open Sys2Proof

/-- The encoder's opcode byte has a row, whose operand count is the number of operand bytes the encoder writes. -/
def Statement (i : Instr) : Prop :=
  (findRow i.opcode referenceTable).isSome = true ∧ operandCount i.opcode = i.operandBytes.length

theorem ldaImm (v : Byte) : Statement (.ldaImm v) := ⟨rfl, rfl⟩
theorem ldaZp (z : Byte) : Statement (.ldaZp z) := ⟨rfl, rfl⟩
theorem ldaAbs (a : Word) : Statement (.ldaAbs a) := ⟨rfl, rfl⟩
theorem ldaAbsX (base : Word) : Statement (.ldaAbsX base) := ⟨rfl, rfl⟩
theorem ldxImm (v : Byte) : Statement (.ldxImm v) := ⟨rfl, rfl⟩
theorem ldxZp (z : Byte) : Statement (.ldxZp z) := ⟨rfl, rfl⟩
theorem ldxAbs (a : Word) : Statement (.ldxAbs a) := ⟨rfl, rfl⟩
theorem ldyImm (v : Byte) : Statement (.ldyImm v) := ⟨rfl, rfl⟩
theorem ldyZp (z : Byte) : Statement (.ldyZp z) := ⟨rfl, rfl⟩
theorem ldyAbs (a : Word) : Statement (.ldyAbs a) := ⟨rfl, rfl⟩
theorem ldyAbsX (base : Word) : Statement (.ldyAbsX base) := ⟨rfl, rfl⟩
theorem staZp (z : Byte) : Statement (.staZp z) := ⟨rfl, rfl⟩
theorem staAbs (a : Word) : Statement (.staAbs a) := ⟨rfl, rfl⟩
theorem staAbsX (base : Word) : Statement (.staAbsX base) := ⟨rfl, rfl⟩
theorem stxZp (z : Byte) : Statement (.stxZp z) := ⟨rfl, rfl⟩
theorem stxAbs (a : Word) : Statement (.stxAbs a) := ⟨rfl, rfl⟩
theorem styZp (z : Byte) : Statement (.styZp z) := ⟨rfl, rfl⟩
theorem styAbs (a : Word) : Statement (.styAbs a) := ⟨rfl, rfl⟩
theorem adcImm (v : Byte) : Statement (.adcImm v) := ⟨rfl, rfl⟩
theorem adcZp (z : Byte) : Statement (.adcZp z) := ⟨rfl, rfl⟩
theorem adcAbs (a : Word) : Statement (.adcAbs a) := ⟨rfl, rfl⟩
theorem adcAbsX (base : Word) : Statement (.adcAbsX base) := ⟨rfl, rfl⟩
theorem sbcImm (v : Byte) : Statement (.sbcImm v) := ⟨rfl, rfl⟩
theorem sbcZp (z : Byte) : Statement (.sbcZp z) := ⟨rfl, rfl⟩
theorem sbcAbs (a : Word) : Statement (.sbcAbs a) := ⟨rfl, rfl⟩
theorem sbcAbsX (base : Word) : Statement (.sbcAbsX base) := ⟨rfl, rfl⟩
theorem cmpImm (v : Byte) : Statement (.cmpImm v) := ⟨rfl, rfl⟩
theorem cmpZp (z : Byte) : Statement (.cmpZp z) := ⟨rfl, rfl⟩
theorem cmpAbs (a : Word) : Statement (.cmpAbs a) := ⟨rfl, rfl⟩
theorem cmpAbsX (base : Word) : Statement (.cmpAbsX base) := ⟨rfl, rfl⟩
theorem cpxImm (v : Byte) : Statement (.cpxImm v) := ⟨rfl, rfl⟩
theorem cpxZp (z : Byte) : Statement (.cpxZp z) := ⟨rfl, rfl⟩
theorem cpxAbs (a : Word) : Statement (.cpxAbs a) := ⟨rfl, rfl⟩
theorem cpyImm (v : Byte) : Statement (.cpyImm v) := ⟨rfl, rfl⟩
theorem cpyZp (z : Byte) : Statement (.cpyZp z) := ⟨rfl, rfl⟩
theorem cpyAbs (a : Word) : Statement (.cpyAbs a) := ⟨rfl, rfl⟩
theorem bitZp (z : Byte) : Statement (.bitZp z) := ⟨rfl, rfl⟩
theorem bitAbs (a : Word) : Statement (.bitAbs a) := ⟨rfl, rfl⟩
theorem andImm (v : Byte) : Statement (.andImm v) := ⟨rfl, rfl⟩
theorem andZp (z : Byte) : Statement (.andZp z) := ⟨rfl, rfl⟩
theorem andAbs (a : Word) : Statement (.andAbs a) := ⟨rfl, rfl⟩
theorem andAbsX (base : Word) : Statement (.andAbsX base) := ⟨rfl, rfl⟩
theorem oraImm (v : Byte) : Statement (.oraImm v) := ⟨rfl, rfl⟩
theorem oraZp (z : Byte) : Statement (.oraZp z) := ⟨rfl, rfl⟩
theorem oraAbs (a : Word) : Statement (.oraAbs a) := ⟨rfl, rfl⟩
theorem oraAbsX (base : Word) : Statement (.oraAbsX base) := ⟨rfl, rfl⟩
theorem eorImm (v : Byte) : Statement (.eorImm v) := ⟨rfl, rfl⟩
theorem eorZp (z : Byte) : Statement (.eorZp z) := ⟨rfl, rfl⟩
theorem eorAbs (a : Word) : Statement (.eorAbs a) := ⟨rfl, rfl⟩
theorem eorAbsX (base : Word) : Statement (.eorAbsX base) := ⟨rfl, rfl⟩
theorem aslAcc : Statement .aslAcc := ⟨rfl, rfl⟩
theorem aslZp (z : Byte) : Statement (.aslZp z) := ⟨rfl, rfl⟩
theorem aslAbs (a : Word) : Statement (.aslAbs a) := ⟨rfl, rfl⟩
theorem aslAbsX (base : Word) : Statement (.aslAbsX base) := ⟨rfl, rfl⟩
theorem lsrAcc : Statement .lsrAcc := ⟨rfl, rfl⟩
theorem lsrZp (z : Byte) : Statement (.lsrZp z) := ⟨rfl, rfl⟩
theorem lsrAbs (a : Word) : Statement (.lsrAbs a) := ⟨rfl, rfl⟩
theorem lsrAbsX (base : Word) : Statement (.lsrAbsX base) := ⟨rfl, rfl⟩
theorem rolAcc : Statement .rolAcc := ⟨rfl, rfl⟩
theorem rolZp (z : Byte) : Statement (.rolZp z) := ⟨rfl, rfl⟩
theorem rolAbs (a : Word) : Statement (.rolAbs a) := ⟨rfl, rfl⟩
theorem rolAbsX (base : Word) : Statement (.rolAbsX base) := ⟨rfl, rfl⟩
theorem rorAcc : Statement .rorAcc := ⟨rfl, rfl⟩
theorem rorZp (z : Byte) : Statement (.rorZp z) := ⟨rfl, rfl⟩
theorem rorAbs (a : Word) : Statement (.rorAbs a) := ⟨rfl, rfl⟩
theorem rorAbsX (base : Word) : Statement (.rorAbsX base) := ⟨rfl, rfl⟩
theorem incZp (z : Byte) : Statement (.incZp z) := ⟨rfl, rfl⟩
theorem incAbs (a : Word) : Statement (.incAbs a) := ⟨rfl, rfl⟩
theorem incAbsX (base : Word) : Statement (.incAbsX base) := ⟨rfl, rfl⟩
theorem decZp (z : Byte) : Statement (.decZp z) := ⟨rfl, rfl⟩
theorem decAbs (a : Word) : Statement (.decAbs a) := ⟨rfl, rfl⟩
theorem decAbsX (base : Word) : Statement (.decAbsX base) := ⟨rfl, rfl⟩
theorem inx : Statement .inx := ⟨rfl, rfl⟩
theorem iny : Statement .iny := ⟨rfl, rfl⟩
theorem dex : Statement .dex := ⟨rfl, rfl⟩
theorem dey : Statement .dey := ⟨rfl, rfl⟩
theorem tax : Statement .tax := ⟨rfl, rfl⟩
theorem txa : Statement .txa := ⟨rfl, rfl⟩
theorem tay : Statement .tay := ⟨rfl, rfl⟩
theorem tya : Statement .tya := ⟨rfl, rfl⟩
theorem tsx : Statement .tsx := ⟨rfl, rfl⟩
theorem txs : Statement .txs := ⟨rfl, rfl⟩
theorem pha : Statement .pha := ⟨rfl, rfl⟩
theorem pla : Statement .pla := ⟨rfl, rfl⟩
theorem php : Statement .php := ⟨rfl, rfl⟩
theorem plp : Statement .plp := ⟨rfl, rfl⟩
theorem bpl (d : Byte) : Statement (.bpl d) := ⟨rfl, rfl⟩
theorem bmi (d : Byte) : Statement (.bmi d) := ⟨rfl, rfl⟩
theorem bvc (d : Byte) : Statement (.bvc d) := ⟨rfl, rfl⟩
theorem bvs (d : Byte) : Statement (.bvs d) := ⟨rfl, rfl⟩
theorem bcc (d : Byte) : Statement (.bcc d) := ⟨rfl, rfl⟩
theorem bcs (d : Byte) : Statement (.bcs d) := ⟨rfl, rfl⟩
theorem bne (d : Byte) : Statement (.bne d) := ⟨rfl, rfl⟩
theorem beq (d : Byte) : Statement (.beq d) := ⟨rfl, rfl⟩
theorem jmp (target : Word) : Statement (.jmp target) := ⟨rfl, rfl⟩
theorem jsr (target : Word) : Statement (.jsr target) := ⟨rfl, rfl⟩
theorem rts : Statement .rts := ⟨rfl, rfl⟩
theorem clc : Statement .clc := ⟨rfl, rfl⟩
theorem sec : Statement .sec := ⟨rfl, rfl⟩
theorem cli : Statement .cli := ⟨rfl, rfl⟩
theorem sei : Statement .sei := ⟨rfl, rfl⟩
theorem clv : Statement .clv := ⟨rfl, rfl⟩
theorem cld : Statement .cld := ⟨rfl, rfl⟩
theorem sed : Statement .sed := ⟨rfl, rfl⟩
theorem nop : Statement .nop := ⟨rfl, rfl⟩

/-- The statement holds of every instruction. -/
theorem all (i : Instr) : Statement i := by
  cases i with
  | ldaImm v => exact ldaImm v
  | ldaZp z => exact ldaZp z
  | ldaAbs a => exact ldaAbs a
  | ldaAbsX base => exact ldaAbsX base
  | ldxImm v => exact ldxImm v
  | ldxZp z => exact ldxZp z
  | ldxAbs a => exact ldxAbs a
  | ldyImm v => exact ldyImm v
  | ldyZp z => exact ldyZp z
  | ldyAbs a => exact ldyAbs a
  | ldyAbsX base => exact ldyAbsX base
  | staZp z => exact staZp z
  | staAbs a => exact staAbs a
  | staAbsX base => exact staAbsX base
  | stxZp z => exact stxZp z
  | stxAbs a => exact stxAbs a
  | styZp z => exact styZp z
  | styAbs a => exact styAbs a
  | adcImm v => exact adcImm v
  | adcZp z => exact adcZp z
  | adcAbs a => exact adcAbs a
  | adcAbsX base => exact adcAbsX base
  | sbcImm v => exact sbcImm v
  | sbcZp z => exact sbcZp z
  | sbcAbs a => exact sbcAbs a
  | sbcAbsX base => exact sbcAbsX base
  | cmpImm v => exact cmpImm v
  | cmpZp z => exact cmpZp z
  | cmpAbs a => exact cmpAbs a
  | cmpAbsX base => exact cmpAbsX base
  | cpxImm v => exact cpxImm v
  | cpxZp z => exact cpxZp z
  | cpxAbs a => exact cpxAbs a
  | cpyImm v => exact cpyImm v
  | cpyZp z => exact cpyZp z
  | cpyAbs a => exact cpyAbs a
  | bitZp z => exact bitZp z
  | bitAbs a => exact bitAbs a
  | andImm v => exact andImm v
  | andZp z => exact andZp z
  | andAbs a => exact andAbs a
  | andAbsX base => exact andAbsX base
  | oraImm v => exact oraImm v
  | oraZp z => exact oraZp z
  | oraAbs a => exact oraAbs a
  | oraAbsX base => exact oraAbsX base
  | eorImm v => exact eorImm v
  | eorZp z => exact eorZp z
  | eorAbs a => exact eorAbs a
  | eorAbsX base => exact eorAbsX base
  | aslAcc => exact aslAcc
  | aslZp z => exact aslZp z
  | aslAbs a => exact aslAbs a
  | aslAbsX base => exact aslAbsX base
  | lsrAcc => exact lsrAcc
  | lsrZp z => exact lsrZp z
  | lsrAbs a => exact lsrAbs a
  | lsrAbsX base => exact lsrAbsX base
  | rolAcc => exact rolAcc
  | rolZp z => exact rolZp z
  | rolAbs a => exact rolAbs a
  | rolAbsX base => exact rolAbsX base
  | rorAcc => exact rorAcc
  | rorZp z => exact rorZp z
  | rorAbs a => exact rorAbs a
  | rorAbsX base => exact rorAbsX base
  | incZp z => exact incZp z
  | incAbs a => exact incAbs a
  | incAbsX base => exact incAbsX base
  | decZp z => exact decZp z
  | decAbs a => exact decAbs a
  | decAbsX base => exact decAbsX base
  | inx => exact inx
  | iny => exact iny
  | dex => exact dex
  | dey => exact dey
  | tax => exact tax
  | txa => exact txa
  | tay => exact tay
  | tya => exact tya
  | tsx => exact tsx
  | txs => exact txs
  | pha => exact pha
  | pla => exact pla
  | php => exact php
  | plp => exact plp
  | bpl d => exact bpl d
  | bmi d => exact bmi d
  | bvc d => exact bvc d
  | bvs d => exact bvs d
  | bcc d => exact bcc d
  | bcs d => exact bcs d
  | bne d => exact bne d
  | beq d => exact beq d
  | jmp target => exact jmp target
  | jsr target => exact jsr target
  | rts => exact rts
  | clc => exact clc
  | sec => exact sec
  | cli => exact cli
  | sei => exact sei
  | clv => exact clv
  | cld => exact cld
  | sed => exact sed
  | nop => exact nop

end Sys2Proof.Laws.OpcodeRow
end

