-- ==== Sys2Proof/Laws/Timing.lean ====
section
/-! SUPPORT. The laws of the timing engine: the counter, what one timing step can do, and several steps. -/

namespace Sys2Proof.Machine

/-- The counter advances by one modulo 89,342 (R216). -/
theorem nextCounter_val (c : Fin frameDots) : (nextCounter c).val = (c.val + 1) % 89342 := by
  have hc : c.val < 89342 := c.isLt
  unfold nextCounter
  split
  · next h => exact (Nat.mod_eq_of_lt h).symm
  · next h =>
    have hn : ¬ c.val + 1 < 89342 := h
    have : c.val + 1 = 89342 := by omega
    simp [this]

/-- Everything a timing step can do: in scanline 20 clear, in scanline 261 set, else only advance the counter. -/
theorem timingStep_cases (s : State) :
    (scanline (nextCounter s.counter) = 20 ∧
      timingStep s = clearVblank { s with counter := nextCounter s.counter }) ∨
    (260 < scanline (nextCounter s.counter) ∧
      timingStep s = setVblank { s with counter := nextCounter s.counter }) ∨
    (scanline (nextCounter s.counter) ≠ 20 ∧ scanline (nextCounter s.counter) ≤ 260 ∧
      timingStep s = { s with counter := nextCounter s.counter }) := by
  unfold timingStep actOnBand
  split
  · next h => exact .inl ⟨h, rfl⟩
  · next h =>
    split
    · next h' => exact .inr (.inl ⟨h', rfl⟩)
    · next h' => exact .inr (.inr ⟨h, by simpa using h', rfl⟩)

theorem timingStep_wf {s : State} (h : s.mem.wf = true) : (timingStep s).mem.wf = true := by
  obtain ⟨-, e⟩ | ⟨-, e⟩ | ⟨-, -, e⟩ := timingStep_cases s <;> rw [e]
  · exact rawWrite_wf _ _ h
  · exact rawWrite_wf _ _ h
  · exact h

@[simp] theorem timingSteps_zero (s : State) : timingSteps 0 s = s := rfl

theorem timingSteps_succ (n : Nat) (s : State) : timingSteps (n + 1) s = timingSteps n (timingStep s) := rfl

theorem timingSteps_add (m n : Nat) (s : State) : timingSteps (m + n) s = timingSteps n (timingSteps m s) := by
  induction m generalizing s with
  | zero => simp
  | succ m ih => rw [Nat.succ_add, timingSteps_succ, timingSteps_succ, ih]

/-- One more timing step, at the end. -/
theorem timingSteps_succ_last (n : Nat) (s : State) : timingSteps (n + 1) s = timingStep (timingSteps n s) := by
  rw [timingSteps_add]
  rfl

/-- The counter after `n` timing steps. -/
theorem timingSteps_counter (n : Nat) (s : State) :
    (timingSteps n s).counter.val = (s.counter.val + n) % 89342 := by
  induction n with
  | zero => simpa using (Nat.mod_eq_of_lt s.counter.isLt).symm
  | succ n ih => rw [timingSteps_succ_last, timingStep_counter, nextCounter_val, ih]; omega

theorem timingSteps_wf (n : Nat) {s : State} (h : s.mem.wf = true) : (timingSteps n s).mem.wf = true := by
  induction n generalizing s with
  | zero => exact h
  | succ n ih => exact ih (timingStep_wf h)

theorem runTiming_of_running {s : State} (h : s.halted = none) :
    runTiming s = timingSteps (3 * s.cycles) s := by simp [runTiming, h]

theorem runTiming_of_halted {s : State} {h : Halt} (hs : s.halted = some h) : runTiming s = s := by
  simp [runTiming, hs]

theorem runTiming_wf {s : State} (h : s.mem.wf = true) : (runTiming s).mem.wf = true := by
  unfold runTiming
  split
  · exact timingSteps_wf _ h
  · exact h

end Sys2Proof.Machine
end

