-- ==== Sys2Proof/Laws/Step.lean ====
section
/-! SUPPORT. What a step can do, said once: the front half of the CPU step, the CPU step, the system step. -/

namespace Sys2Proof.Machine

/-- Everything the front half of a CPU step can do: an implemented opcode whose bytes decode gives the instruction
in the state after its fetch; any other opcode is unsupported, in the state after the opcode's fetch. -/
theorem fetchInstr_cases (s : State) :
    (∃ i rest cost, s.cfg.handler (rawRead s.pc s) = some cost ∧
      decode (rawRead s.pc s :: (fetchBytes (operandCount (rawRead s.pc s)) (fetch8 s).2).1) = .ok (i, rest) ∧
      fetchInstr s =
        .instr i { (fetchBytes (operandCount (rawRead s.pc s)) (fetch8 s).2).2 with cycles := cost }) ∨
    ((s.cfg.handler (rawRead s.pc s) = none ∨
        ∃ e, decode (rawRead s.pc s :: (fetchBytes (operandCount (rawRead s.pc s)) (fetch8 s).2).1) = .error e) ∧
      fetchInstr s = .unsupported (rawRead s.pc s) (fetch8 s).2) := by
  unfold fetchInstr fetchOperands
  rw [fetch8_fst]
  cases hc : s.cfg.handler (rawRead s.pc s) with
  | none => exact .inr ⟨.inl rfl, rfl⟩
  | some cost =>
    cases hd : decode (rawRead s.pc s :: (fetchBytes (operandCount (rawRead s.pc s)) (fetch8 s).2).1) with
    | ok r => exact .inl ⟨r.1, r.2, cost, rfl, rfl, rfl⟩
    | error e => exact .inr ⟨.inr ⟨e, rfl⟩, rfl⟩

/-- Everything a CPU step that answers a next state can do. -/
theorem cpuStep_cases {s t : State} (h : cpuStep s = .next t) :
    s.halted = none ∧
    ((∃ i u, fetchInstr s = .instr i u ∧ exec i u = .next t) ∨
     (∃ op u, fetchInstr s = .unsupported op u ∧ t = takeUnsupported op u)) := by
  unfold cpuStep at h
  split at h
  · cases h
  · next hn =>
    refine ⟨hn, ?_⟩
    split at h
    · next i u hf => exact .inl ⟨i, u, hf, h⟩
    · next op u hf => exact .inr ⟨op, u, hf, (Host.Outcome.next.inj h).symm⟩

/-- Everything a step that answers a next state can do: a CPU step, then its timing steps. -/
theorem step_cases {s t : State} (h : step s = .next t) : ∃ u, cpuStep s = .next u ∧ t = runTiming u := by
  unfold step at h
  split at h
  · next u hu => exact ⟨u, hu, (Host.Outcome.next.inj h).symm⟩
  · cases h
  · cases h

/-- A step from a CPU step that answers a next state. -/
theorem step_of_cpuStep {s u : State} (h : cpuStep s = .next u) : step s = .next (runTiming u) := by
  simp [step, h]

/-- The state an implemented instruction runs from differs from the state before only in PC, memory and cycles. -/
theorem fetchInstr_frame {s u : State} {i : Instr} (h : fetchInstr s = .instr i u) :
    u = { s with pc := u.pc, mem := u.mem, cycles := u.cycles } := by
  obtain ⟨j, rest, cost, -, -, e⟩ | ⟨-, e⟩ := fetchInstr_cases s
  · rw [h] at e
    injection e with _ he
    rw [he, fetchBytes_frame]
    simp
  · rw [h] at e
    cases e

end Sys2Proof.Machine
end

