-- ==== Sys2Proof/Tests/Slice0.lean ====
section
/-! SUPPORT. The model's own tests: ill-formed terms that the checks refuse, words written out from the encodings
of spec/30_encoding.md R81 and R88, one-step tests whose start and end are the vectors of spec/95_test_vectors.md
(each test carries its vector's name), and for each statement with hypotheses a witness that meets them. -/

namespace Sys2Proof.Tests

open Sys2Proof Sys2Proof.Machine Sys2Proof.Statements

-- One theorem at a time: a thread for each waiting kernel check would reserve more memory than the check allows.
set_option Elab.async false

/-! ## Helpers -/

/-- Bytes stored at listed addresses. -/
def put : List (Word × Byte) → State → State
  | [], s => s
  | c :: cs, s => put cs (rawWrite c.1 c.2 s)

/-- A state about to run `bytes` at `addr`, with `cells` in memory. -/
def at_ (addr : Word) (bytes : List Byte) (cells : List (Word × Byte)) (s : State) : State :=
  put cells (placeBytes addr bytes { s with pc := addr })

/-- What a system step's next state shows. -/
def seen {α : Type} (f : State → α) (s : State) : Option α :=
  match step s with
  | .next t => some (f t)
  | _ => none

/-- The instruction a list of bytes is, if it is exactly one. -/
def reads (bytes : List Byte) : Option Instr :=
  match decode bytes with
  | .ok (i, []) => some i
  | _ => none

/-- What one timing step shows: counter, scanline, vblank and the status byte. -/
def ticked (counter : Fin frameDots) (vblank : Bool) (status : Byte) : Nat × Nat × Bool × Byte :=
  let t := timingStep (rawWrite 0x2002 status { State.reset with counter := counter, vblank := vblank })
  (t.counter.val, scanline t.counter, t.vblank, rawRead 0x2002 t)

/-! ## The checks refuse ill-formed terms -/

theorem test_wf_default : defaultConfig.wf = true := by decide +kernel

theorem test_wf_handlers_distinct :
    { defaultConfig with handlers := (0xA9, 3) :: defaultConfig.handlers }.handlersDistinct = false := by
  decide +kernel

theorem test_wf_handlers_in_reference :
    { defaultConfig with handlers := (0x02, 2) :: defaultConfig.handlers }.handlersInReference = false := by
  decide +kernel

theorem test_wf_source_opcodes :
    { defaultConfig with handlers := [(0xA9, 2), (0x8D, 4)] }.sourceOpcodesImplemented = false := by decide

theorem test_wf_costs_positive :
    { defaultConfig with handlers := [(0xA9, 2), (0x8D, 4), (0x38, 0)] }.costsPositive = false := by decide

theorem test_wf_addresses_distinct : { defaultConfig with latchB := 0x2005 }.addressesDistinct = false := by decide

theorem test_wf_addresses_outside_rom : { defaultConfig with statusAddr := 0x8000 }.addressesOutsideRom = false := by
  decide

/-- R66: the two ends of the inert range, for each address, and the addresses on either side of it. -/
theorem test_wf_addresses_outside_inert_range :
    { defaultConfig with statusAddr := 0x4000 }.addressesOutsideInertRange = false ∧
    { defaultConfig with statusAddr := 0x4017 }.addressesOutsideInertRange = false ∧
    { defaultConfig with latchA := 0x4017 }.addressesOutsideInertRange = false ∧
    { defaultConfig with latchB := 0x4000 }.addressesOutsideInertRange = false ∧
    { defaultConfig with statusAddr := 0x3FFF, latchA := 0x4018 }.addressesOutsideInertRange = true ∧
    { defaultConfig with statusAddr := 0x4010 }.wf = false := by decide +kernel

theorem test_wf_config_refused : { defaultConfig with latchA := 0x2002 }.wf = false := by decide +kernel

/-- The smallest allowed set of R89 (D1) makes an allowed record, in which NOP is not well-formed. -/
theorem test_wf_instr :
    { defaultConfig with handlers := [(0xA9, 2), (0x8D, 4), (0x38, 2)] }.wf = true ∧
    Instr.wf { defaultConfig with handlers := [(0xA9, 2), (0x8D, 4), (0x38, 2)] } .nop = false ∧
    Instr.wf defaultConfig .nop = true := by decide +kernel

theorem test_wf_memory :
    Memory.wf [(1, 5), (2, 6)] = true ∧ Memory.wf [(2, 6), (1, 5)] = false ∧ Memory.wf [(1, 5), (1, 6)] = false ∧
    Memory.wf [(1, 0)] = false ∧ Memory.wf [(65536, 1)] = false := by decide

/-- R86, R90: 105 rows with 105 opcodes; 2, 44 and 105 bytes without a row. -/
theorem test_table_counts :
    referenceTable.length = 105 ∧ referenceSet.Nodup ∧ interruptOpcodes.length = 2 ∧ otherModeOpcodes.length = 44 ∧
    listedOtherModes.length = 44 ∧ listedUndocumented.length = 105 := by decide +kernel

theorem test_per_instruction (v : Byte) : Laws.OpcodeRow.Statement (.ldaImm v) := Laws.OpcodeRow.ldaImm v

/-! ## Words written out from the encodings -/

theorem test_decode_loads_1 :
    reads [0b10100101, 0x81] = some (.ldaZp 0x81) ∧
    reads [0b10101001, 0x81] = some (.ldaImm 0x81) ∧
    reads [0b10101101, 0x34, 0x12] = some (.ldaAbs 0x1234) ∧
    reads [0b10111101, 0x34, 0x12] = some (.ldaAbsX 0x1234) ∧
    reads [0b10100010, 0x81] = some (.ldxImm 0x81) ∧
    reads [0b10100110, 0x81] = some (.ldxZp 0x81) ∧
    reads [0b10101110, 0x34, 0x12] = some (.ldxAbs 0x1234) ∧
    reads [0b10100000, 0x81] = some (.ldyImm 0x81) ∧
    reads [0b10100100, 0x81] = some (.ldyZp 0x81) ∧
    reads [0b10101100, 0x34, 0x12] = some (.ldyAbs 0x1234) ∧
    reads [0b10111100, 0x34, 0x12] = some (.ldyAbsX 0x1234) ∧
    reads [0b10000101, 0x81] = some (.staZp 0x81) := by decide

theorem test_decode_loads_2 :
    reads [0b10001101, 0x34, 0x12] = some (.staAbs 0x1234) ∧
    reads [0b10011101, 0x34, 0x12] = some (.staAbsX 0x1234) ∧
    reads [0b10000110, 0x81] = some (.stxZp 0x81) ∧
    reads [0b10001110, 0x34, 0x12] = some (.stxAbs 0x1234) ∧
    reads [0b10000100, 0x81] = some (.styZp 0x81) ∧
    reads [0b10001100, 0x34, 0x12] = some (.styAbs 0x1234) := by decide

theorem test_decode_arithmetic_1 :
    reads [0b01100101, 0x81] = some (.adcZp 0x81) ∧
    reads [0b01101001, 0x81] = some (.adcImm 0x81) ∧
    reads [0b01101101, 0x34, 0x12] = some (.adcAbs 0x1234) ∧
    reads [0b01111101, 0x34, 0x12] = some (.adcAbsX 0x1234) ∧
    reads [0b11100101, 0x81] = some (.sbcZp 0x81) ∧
    reads [0b11101001, 0x81] = some (.sbcImm 0x81) ∧
    reads [0b11101101, 0x34, 0x12] = some (.sbcAbs 0x1234) ∧
    reads [0b11111101, 0x34, 0x12] = some (.sbcAbsX 0x1234) ∧
    reads [0b11000101, 0x81] = some (.cmpZp 0x81) ∧
    reads [0b11001001, 0x81] = some (.cmpImm 0x81) ∧
    reads [0b11001101, 0x34, 0x12] = some (.cmpAbs 0x1234) ∧
    reads [0b11011101, 0x34, 0x12] = some (.cmpAbsX 0x1234) := by decide

theorem test_decode_arithmetic_2 :
    reads [0b11100000, 0x81] = some (.cpxImm 0x81) ∧
    reads [0b11100100, 0x81] = some (.cpxZp 0x81) ∧
    reads [0b11101100, 0x34, 0x12] = some (.cpxAbs 0x1234) ∧
    reads [0b11000000, 0x81] = some (.cpyImm 0x81) ∧
    reads [0b11000100, 0x81] = some (.cpyZp 0x81) ∧
    reads [0b11001100, 0x34, 0x12] = some (.cpyAbs 0x1234) ∧
    reads [0b00100100, 0x81] = some (.bitZp 0x81) ∧
    reads [0b00101100, 0x34, 0x12] = some (.bitAbs 0x1234) := by decide

theorem test_decode_logic_1 :
    reads [0b00100101, 0x81] = some (.andZp 0x81) ∧
    reads [0b00101001, 0x81] = some (.andImm 0x81) ∧
    reads [0b00101101, 0x34, 0x12] = some (.andAbs 0x1234) ∧
    reads [0b00111101, 0x34, 0x12] = some (.andAbsX 0x1234) ∧
    reads [0b00000101, 0x81] = some (.oraZp 0x81) ∧
    reads [0b00001001, 0x81] = some (.oraImm 0x81) ∧
    reads [0b00001101, 0x34, 0x12] = some (.oraAbs 0x1234) ∧
    reads [0b00011101, 0x34, 0x12] = some (.oraAbsX 0x1234) ∧
    reads [0b01000101, 0x81] = some (.eorZp 0x81) ∧
    reads [0b01001001, 0x81] = some (.eorImm 0x81) ∧
    reads [0b01001101, 0x34, 0x12] = some (.eorAbs 0x1234) ∧
    reads [0b01011101, 0x34, 0x12] = some (.eorAbsX 0x1234) := by decide

theorem test_decode_logic_2 :
    reads [0b00000110, 0x81] = some (.aslZp 0x81) ∧
    reads [0b00001010] = some .aslAcc ∧
    reads [0b00001110, 0x34, 0x12] = some (.aslAbs 0x1234) ∧
    reads [0b00011110, 0x34, 0x12] = some (.aslAbsX 0x1234) ∧
    reads [0b01000110, 0x81] = some (.lsrZp 0x81) ∧
    reads [0b01001010] = some .lsrAcc ∧
    reads [0b01001110, 0x34, 0x12] = some (.lsrAbs 0x1234) ∧
    reads [0b01011110, 0x34, 0x12] = some (.lsrAbsX 0x1234) ∧
    reads [0b00100110, 0x81] = some (.rolZp 0x81) ∧
    reads [0b00101010] = some .rolAcc ∧
    reads [0b00101110, 0x34, 0x12] = some (.rolAbs 0x1234) ∧
    reads [0b00111110, 0x34, 0x12] = some (.rolAbsX 0x1234) := by decide

theorem test_decode_logic_3 :
    reads [0b01100110, 0x81] = some (.rorZp 0x81) ∧
    reads [0b01101010] = some .rorAcc ∧
    reads [0b01101110, 0x34, 0x12] = some (.rorAbs 0x1234) ∧
    reads [0b01111110, 0x34, 0x12] = some (.rorAbsX 0x1234) ∧
    reads [0b11100110, 0x81] = some (.incZp 0x81) ∧
    reads [0b11101110, 0x34, 0x12] = some (.incAbs 0x1234) ∧
    reads [0b11111110, 0x34, 0x12] = some (.incAbsX 0x1234) ∧
    reads [0b11000110, 0x81] = some (.decZp 0x81) ∧
    reads [0b11001110, 0x34, 0x12] = some (.decAbs 0x1234) ∧
    reads [0b11011110, 0x34, 0x12] = some (.decAbsX 0x1234) ∧
    reads [0b11101000] = some .inx ∧
    reads [0b11001000] = some .iny := by decide

theorem test_decode_logic_4 :
    reads [0b11001010] = some .dex ∧
    reads [0b10001000] = some .dey := by decide

theorem test_decode_transfers :
    reads [0b10101010] = some .tax ∧
    reads [0b10001010] = some .txa ∧
    reads [0b10101000] = some .tay ∧
    reads [0b10011000] = some .tya ∧
    reads [0b10111010] = some .tsx ∧
    reads [0b10011010] = some .txs ∧
    reads [0b01001000] = some .pha ∧
    reads [0b01101000] = some .pla ∧
    reads [0b00001000] = some .php ∧
    reads [0b00101000] = some .plp := by decide

theorem test_decode_control :
    reads [0b00010000, 0x81] = some (.bpl 0x81) ∧
    reads [0b00110000, 0x81] = some (.bmi 0x81) ∧
    reads [0b01010000, 0x81] = some (.bvc 0x81) ∧
    reads [0b01110000, 0x81] = some (.bvs 0x81) ∧
    reads [0b10010000, 0x81] = some (.bcc 0x81) ∧
    reads [0b10110000, 0x81] = some (.bcs 0x81) ∧
    reads [0b11010000, 0x81] = some (.bne 0x81) ∧
    reads [0b11110000, 0x81] = some (.beq 0x81) ∧
    reads [0b01001100, 0x34, 0x12] = some (.jmp 0x1234) ∧
    reads [0b00100000, 0x34, 0x12] = some (.jsr 0x1234) ∧
    reads [0b01100000] = some .rts := by decide

theorem test_decode_flags :
    reads [0b00011000] = some .clc ∧
    reads [0b00111000] = some .sec ∧
    reads [0b01011000] = some .cli ∧
    reads [0b01111000] = some .sei ∧
    reads [0b10111000] = some .clv ∧
    reads [0b11011000] = some .cld ∧
    reads [0b11111000] = some .sed ∧
    reads [0b11101010] = some .nop := by decide

/-- Table words: bit 0 is the least significant bit of the opcode byte; a word with no operand bits has operand
bytes of zeros. -/
theorem test_table_words :
    decodeTableWord 8 0xA9 = some (.ldaImm 0x00) ∧ decodeTableWord 16 0x05A9 = some (.ldaImm 0x05) ∧
    decodeTableWord 24 0x20008D = some (.staAbs 0x2000) ∧ decodeTableWord 8 0x2005A9 = some (.ldaImm 0x00) ∧
    decodeTableWord 8 0x02 = none := by decide

/-- The decoder's rejections, by name. -/
theorem test_decode_rejects :
    decode [] = .error .noBytes ∧ decode [0xA9] = .error (.truncated 0xA9) ∧
    decode [0x8D, 0x00] = .error (.truncated 0x8D) ∧
    decode [0x40] = .error (.unsupported 0x40 .interruptInstruction) ∧
    decode [0xB9, 0x00, 0x03] = .error (.unsupported 0xB9 .otherAddressingMode) ∧
    decode [0x1A] = .error (.unsupported 0x1A .undocumented) := by decide

/-- Every row's word, placed at PC after reset, is fetched and runs: no step halts. -/
theorem test_every_row_runs :
    ∀ op ∈ referenceSet, seen (·.halted) (State.reset.withFetchWord 8 op.toNat) = some none := by decide +kernel

/-! ## One step of each instruction: the vectors of spec/95_test_vectors.md -/

theorem test_ldaZp_V40_2 :
    seen (fun t => (t.pc, t.a, t.p, t.cycles))
      (at_ 0x8000 [0xA5, 0x10] [(0x0010, 0x99)] State.reset) =
    some (0x8002, 0x99, 0xA0, 3) := by decide

theorem test_ldaAbsX_V40_4 :
    seen (fun t => (t.pc, t.a, t.p, t.cycles))
      (at_ 0x8000 [0xBD, 0x00, 0x03] [(0x0301, 0x80)] { State.reset with x := 0x01 }) =
    some (0x8003, 0x80, 0xA0, 4) := by decide

theorem test_ldaAbsX_V40_6 :
    seen (fun t => (t.pc, t.a, t.p, t.cycles))
      (at_ 0x8000 [0xBD, 0xFF, 0xFF] [(0x0001, 0x55)] { State.reset with x := 0x02 }) =
    some (0x8003, 0x55, 0x20, 5) := by decide +kernel

theorem test_ldyAbsX_V40_7 :
    seen (fun t => (t.pc, t.y, t.p, t.cycles))
      (at_ 0x8000 [0xBC, 0xFF, 0x80] [(0x8100, 0x07)] { State.reset with x := 0x01 }) =
    some (0x8003, 0x07, 0x20, 4) := by decide

theorem test_adcAbsX_V40_8 :
    seen (fun t => (t.pc, t.a, t.p, t.cycles))
      (at_ 0x8000 [0x7D, 0xFF, 0x80] [(0x8100, 0x01)] { State.reset with x := 0x01 }) =
    some (0x8003, 0x01, 0x20, 4) := by decide

theorem test_ldaImm_V40_9 :
    seen (fun t => (t.pc, t.a, t.p, t.cycles))
      (at_ 0xFFFF [0xA9, 0x33] [] State.reset) =
    some (0x0001, 0x33, 0x20, 2) := by decide

theorem test_ldaAbs_V40_10 :
    seen (fun t => (t.pc, t.a, t.p, t.cycles))
      (at_ 0xFFFE [0xAD, 0x00, 0x20] [(0x2000, 0x44)] State.reset) =
    some (0x0001, 0x44, 0x20, 4) := by decide +kernel

theorem test_ldaImm_V41_1 :
    seen (fun t => (t.pc, t.a, t.p, t.cycles))
      (at_ 0x8000 [0xA9, 0x00] [] { State.reset with a := 0x55 }) =
    some (0x8002, 0x00, 0x22, 2) := by decide

theorem test_ldaZp_V41_3 :
    seen (fun t => (t.pc, t.a, t.p, t.cycles))
      (at_ 0x8000 [0xA5, 0x02] [(0x0002, 0x01)] { State.reset with p := 0x23 }) =
    some (0x8002, 0x01, 0x21, 3) := by decide

theorem test_ldxImm_V41_4 :
    seen (fun t => (t.pc, t.x, t.p, t.cycles))
      (at_ 0x8000 [0xA2, 0xFF] [] State.reset) =
    some (0x8002, 0xFF, 0xA0, 2) := by decide

theorem test_ldxAbs_V41_5 :
    seen (fun t => (t.pc, t.x, t.p, t.cycles))
      (at_ 0x8000 [0xAE, 0x00, 0x03] [(0x0300, 0x00)] { State.reset with x := 0x12 }) =
    some (0x8003, 0x00, 0x22, 4) := by decide

theorem test_ldyImm_V41_6 :
    seen (fun t => (t.pc, t.y, t.p, t.cycles))
      (at_ 0x8000 [0xA0, 0x7F] [] State.reset) =
    some (0x8002, 0x7F, 0x20, 2) := by decide

theorem test_ldyAbsX_V41_7 :
    seen (fun t => (t.pc, t.y, t.p, t.cycles))
      (at_ 0x8000 [0xBC, 0x10, 0x03] [(0x0315, 0x90)] { State.reset with x := 0x05 }) =
    some (0x8003, 0x90, 0xA0, 4) := by decide

theorem test_staZp_V41_8 :
    seen (fun t => (t.pc, t.p, rawRead 0x0010 t, t.cycles))
      (at_ 0x8000 [0x85, 0x10] [] { State.reset with a := 0x00, p := 0xA0 }) =
    some (0x8002, 0xA0, 0x00, 3) := by decide

theorem test_staAbsX_V41_9 :
    seen (fun t => (t.pc, t.p, rawRead 0x0300 t, t.cycles))
      (at_ 0x8000 [0x9D, 0xFF, 0x02] [] { State.reset with a := 0x77, x := 0x01 }) =
    some (0x8003, 0x20, 0x77, 5) := by decide +kernel

theorem test_stxZp_V41_10 :
    seen (fun t => (t.pc, t.p, rawRead 0x0020 t, t.cycles))
      (at_ 0x8000 [0x86, 0x20] [] { State.reset with x := 0x80 }) =
    some (0x8002, 0x20, 0x80, 3) := by decide

theorem test_stxAbs_V41_11 :
    seen (fun t => (t.pc, t.p, rawRead 0x0400 t, t.cycles))
      (at_ 0x8000 [0x8E, 0x00, 0x04] [] { State.reset with x := 0x01 }) =
    some (0x8003, 0x20, 0x01, 4) := by decide

theorem test_styZp_V41_12 :
    seen (fun t => (t.pc, t.p, rawRead 0x0021 t, t.cycles))
      (at_ 0x8000 [0x84, 0x21] [(0x0021, 0xFF)] { State.reset with y := 0x00 }) =
    some (0x8002, 0x20, 0x00, 3) := by decide

theorem test_styAbs_V41_13 :
    seen (fun t => (t.pc, t.p, rawRead 0x0401 t, t.cycles))
      (at_ 0x8000 [0x8C, 0x01, 0x04] [] { State.reset with y := 0x3C }) =
    some (0x8003, 0x20, 0x3C, 4) := by decide

theorem test_ldaAbs_V41_14 :
    seen (fun t => (t.pc, t.a, t.p, [rawRead 0x2002 t, rawRead 0x2005 t, rawRead 0x2006 t], t.cycles))
      (at_ 0x8000 [0xAD, 0x02, 0x20] [(0x2002, 0xC1), (0x2005, 0x12), (0x2006, 0x34)] State.reset) =
    some (0x8003, 0xC1, 0xA0, [0x41, 0x00, 0x00], 4) := by decide +kernel

theorem test_staAbs_V41_15 :
    seen (fun t => (t.pc, t.p, [rawRead 0x2002 t, rawRead 0x2005 t], t.cycles))
      (at_ 0x8000 [0x8D, 0x02, 0x20] [(0x2005, 0x12)] { State.reset with a := 0x80 }) =
    some (0x8003, 0x20, [0x80, 0x12], 4) := by decide

theorem test_adcImm_V42_1 :
    seen (fun t => (t.pc, t.a, t.p, t.cycles))
      (at_ 0x8000 [0x69, 0x50] [] { State.reset with a := 0x50 }) =
    some (0x8002, 0xA0, 0xE0, 2) := by decide

theorem test_adcImm_V42_3 :
    seen (fun t => (t.pc, t.a, t.p, t.cycles))
      (at_ 0x8000 [0x69, 0x00] [] { State.reset with a := 0x7F, p := 0x21 }) =
    some (0x8002, 0x80, 0xE0, 2) := by decide

theorem test_adcZp_V42_6 :
    seen (fun t => (t.pc, t.a, t.p, t.cycles))
      (at_ 0x8000 [0x65, 0x10] [(0x0010, 0xFE)] { State.reset with a := 0x01, p := 0x21 }) =
    some (0x8002, 0x00, 0x23, 3) := by decide

theorem test_sbcImm_V42_7 :
    seen (fun t => (t.pc, t.a, t.p, t.cycles))
      (at_ 0x8000 [0xE9, 0xF0] [] { State.reset with a := 0x50, p := 0x21 }) =
    some (0x8002, 0x60, 0x20, 2) := by decide

theorem test_sbcImm_V42_11 :
    seen (fun t => (t.pc, t.a, t.p, t.cycles))
      (at_ 0x8000 [0xE9, 0x01] [] { State.reset with a := 0x80, p := 0x21 }) =
    some (0x8002, 0x7F, 0x61, 2) := by decide

theorem test_cmpImm_V42_13 :
    seen (fun t => (t.pc, t.p, t.cycles))
      (at_ 0x8000 [0xC9, 0x20] [] { State.reset with a := 0x10 }) =
    some (0x8002, 0xA0, 2) := by decide

theorem test_cmpImm_V42_15 :
    seen (fun t => (t.pc, t.p, t.cycles))
      (at_ 0x8000 [0xC9, 0x01] [] { State.reset with a := 0x80, p := 0x60 }) =
    some (0x8002, 0x61, 2) := by decide

theorem test_cpxImm_V42_16 :
    seen (fun t => (t.pc, t.p, t.cycles))
      (at_ 0x8000 [0xE0, 0xFF] [] { State.reset with x := 0x00 }) =
    some (0x8002, 0x20, 2) := by decide

theorem test_cpxAbs_V42_17 :
    seen (fun t => (t.pc, t.p, t.cycles))
      (at_ 0x8000 [0xEC, 0x00, 0x03] [(0x0300, 0x05)] { State.reset with x := 0x05 }) =
    some (0x8003, 0x23, 4) := by decide

theorem test_cpyImm_V42_18 :
    seen (fun t => (t.pc, t.p, t.cycles))
      (at_ 0x8000 [0xC0, 0x00] [] { State.reset with y := 0x01 }) =
    some (0x8002, 0x21, 2) := by decide

theorem test_bitAbs_V42_19 :
    seen (fun t => (t.pc, t.p, t.cycles))
      (at_ 0x8000 [0x2C, 0x00, 0x03] [(0x0300, 0xC0)] { State.reset with a := 0x00 }) =
    some (0x8003, 0xE2, 4) := by decide

theorem test_bitZp_V42_20 :
    seen (fun t => (t.pc, t.p, t.cycles))
      (at_ 0x8000 [0x24, 0x10] [(0x0010, 0x3F)] { State.reset with a := 0x01, p := 0xE2 }) =
    some (0x8002, 0x20, 3) := by decide

theorem test_bitAbs_V42_21 :
    seen (fun t => (t.pc, t.p, rawRead 0x2002 t, t.cycles))
      (at_ 0x8000 [0x2C, 0x02, 0x20] [(0x2002, 0x80)] { State.reset with a := 0x80 }) =
    some (0x8003, 0xA0, 0x00, 4) := by decide

theorem test_andImm_V43_1 :
    seen (fun t => (t.pc, t.a, t.p, t.cycles))
      (at_ 0x8000 [0x29, 0x0F] [] { State.reset with a := 0xF0 }) =
    some (0x8002, 0x00, 0x22, 2) := by decide

theorem test_andImm_V43_2 :
    seen (fun t => (t.pc, t.a, t.p, t.cycles))
      (at_ 0x8000 [0x29, 0xC0] [] { State.reset with a := 0x81 }) =
    some (0x8002, 0x80, 0xA0, 2) := by decide

theorem test_oraImm_V43_3 :
    seen (fun t => (t.pc, t.a, t.p, t.cycles))
      (at_ 0x8000 [0x09, 0x80] [] { State.reset with a := 0x01 }) =
    some (0x8002, 0x81, 0xA0, 2) := by decide

theorem test_oraImm_V43_4 :
    seen (fun t => (t.pc, t.p, t.cycles))
      (at_ 0x8000 [0x09, 0x00] [] { State.reset with a := 0x00 }) =
    some (0x8002, 0x22, 2) := by decide

theorem test_eorImm_V43_5 :
    seen (fun t => (t.pc, t.a, t.p, t.cycles))
      (at_ 0x8000 [0x49, 0xFF] [] { State.reset with a := 0xFF }) =
    some (0x8002, 0x00, 0x22, 2) := by decide

theorem test_eorImm_V43_6 :
    seen (fun t => (t.pc, t.a, t.p, t.cycles))
      (at_ 0x8000 [0x49, 0x0F] [] { State.reset with a := 0x7F }) =
    some (0x8002, 0x70, 0x20, 2) := by decide

theorem test_aslAcc_V43_7 :
    seen (fun t => (t.pc, t.a, t.p, t.cycles))
      (at_ 0x8000 [0x0A] [] { State.reset with a := 0x80 }) =
    some (0x8001, 0x00, 0x23, 2) := by decide

theorem test_aslZp_V43_8 :
    seen (fun t => (t.pc, t.p, rawRead 0x0010 t, t.cycles))
      (at_ 0x8000 [0x06, 0x10] [(0x0010, 0x41)] State.reset) =
    some (0x8002, 0xA0, 0x82, 5) := by decide +kernel

theorem test_lsrAcc_V43_9 :
    seen (fun t => (t.pc, t.a, t.p, t.cycles))
      (at_ 0x8000 [0x4A] [] { State.reset with a := 0x01 }) =
    some (0x8001, 0x00, 0x23, 2) := by decide

theorem test_lsrAbs_V43_10 :
    seen (fun t => (t.pc, t.p, rawRead 0x0300 t, t.cycles))
      (at_ 0x8000 [0x4E, 0x00, 0x03] [(0x0300, 0x80)] { State.reset with p := 0xA0 }) =
    some (0x8003, 0x20, 0x40, 6) := by decide +kernel

theorem test_rolAcc_V43_11 :
    seen (fun t => (t.pc, t.a, t.p, t.cycles))
      (at_ 0x8000 [0x2A] [] { State.reset with a := 0x80, p := 0x21 }) =
    some (0x8001, 0x01, 0x21, 2) := by decide

theorem test_rolZp_V43_12 :
    seen (fun t => (t.pc, t.p, rawRead 0x0010 t, t.cycles))
      (at_ 0x8000 [0x26, 0x10] [(0x0010, 0x40)] { State.reset with p := 0x20 }) =
    some (0x8002, 0xA0, 0x80, 5) := by decide +kernel

theorem test_rorAcc_V43_13 :
    seen (fun t => (t.pc, t.a, t.p, t.cycles))
      (at_ 0x8000 [0x6A] [] { State.reset with a := 0x01, p := 0x21 }) =
    some (0x8001, 0x80, 0xA1, 2) := by decide

theorem test_rorAbsX_V43_14 :
    seen (fun t => (t.pc, t.p, rawRead 0x0300 t, t.cycles))
      (at_ 0x8000 [0x7E, 0xFF, 0x02] [(0x0300, 0x02)] { State.reset with x := 0x01, p := 0x20 }) =
    some (0x8003, 0x20, 0x01, 7) := by decide +kernel

theorem test_incZp_V43_15 :
    seen (fun t => (t.pc, t.p, rawRead 0x0010 t, t.cycles))
      (at_ 0x8000 [0xE6, 0x10] [(0x0010, 0xFF)] State.reset) =
    some (0x8002, 0x22, 0x00, 5) := by decide +kernel

theorem test_incAbs_V43_16 :
    seen (fun t => (t.pc, t.p, [rawRead 0x2002 t, rawRead 0x2005 t], t.cycles))
      (at_ 0x8000 [0xEE, 0x02, 0x20] [(0x2002, 0x80), (0x2005, 0x12)] State.reset) =
    some (0x8003, 0xA0, [0x81, 0x00], 6) := by decide +kernel

theorem test_decZp_V43_17 :
    seen (fun t => (t.pc, t.p, rawRead 0x0010 t, t.cycles))
      (at_ 0x8000 [0xC6, 0x10] [(0x0010, 0x00)] State.reset) =
    some (0x8002, 0xA0, 0xFF, 5) := by decide +kernel

theorem test_decAbsX_V43_18 :
    seen (fun t => (t.pc, t.p, rawRead 0x0310 t, t.cycles))
      (at_ 0x8000 [0xDE, 0x00, 0x03] [(0x0310, 0x01)] { State.reset with x := 0x10 }) =
    some (0x8003, 0x22, 0x00, 7) := by decide +kernel

theorem test_inx_V43_19 :
    seen (fun t => (t.pc, t.x, t.p, t.cycles))
      (at_ 0x8000 [0xE8] [] { State.reset with x := 0xFF }) =
    some (0x8001, 0x00, 0x22, 2) := by decide

theorem test_iny_V43_20 :
    seen (fun t => (t.pc, t.y, t.p, t.cycles))
      (at_ 0x8000 [0xC8] [] { State.reset with y := 0x7F }) =
    some (0x8001, 0x80, 0xA0, 2) := by decide

theorem test_dex_V43_21 :
    seen (fun t => (t.pc, t.x, t.p, t.cycles))
      (at_ 0x8000 [0xCA] [] { State.reset with x := 0x01 }) =
    some (0x8001, 0x00, 0x22, 2) := by decide

theorem test_dey_V43_22 :
    seen (fun t => (t.pc, t.y, t.p, t.cycles))
      (at_ 0x8000 [0x88] [] { State.reset with y := 0x00 }) =
    some (0x8001, 0xFF, 0xA0, 2) := by decide

theorem test_tax_V44_1 :
    seen (fun t => (t.pc, t.x, t.p, t.cycles))
      (at_ 0x8000 [0xAA] [] { State.reset with a := 0x00, x := 0x55 }) =
    some (0x8001, 0x00, 0x22, 2) := by decide

theorem test_txa_V44_2 :
    seen (fun t => (t.pc, t.a, t.p, t.cycles))
      (at_ 0x8000 [0x8A] [] { State.reset with x := 0x80 }) =
    some (0x8001, 0x80, 0xA0, 2) := by decide

theorem test_tay_V44_3 :
    seen (fun t => (t.pc, t.y, t.p, t.cycles))
      (at_ 0x8000 [0xA8] [] { State.reset with a := 0x01, p := 0xA2 }) =
    some (0x8001, 0x01, 0x20, 2) := by decide

theorem test_tya_V44_4 :
    seen (fun t => (t.pc, t.a, t.p, t.cycles))
      (at_ 0x8000 [0x98] [] { State.reset with y := 0x00, a := 0x44 }) =
    some (0x8001, 0x00, 0x22, 2) := by decide

theorem test_tsx_V44_5 :
    seen (fun t => (t.pc, t.x, t.p, t.cycles))
      (at_ 0x8000 [0xBA] [] State.reset) =
    some (0x8001, 0xFF, 0xA0, 2) := by decide

theorem test_txs_V44_6 :
    seen (fun t => (t.pc, t.sp, t.p, t.cycles))
      (at_ 0x8000 [0x9A] [] { State.reset with x := 0x00, p := 0x22 }) =
    some (0x8001, 0x00, 0x22, 2) := by decide

theorem test_pha_V44_7 :
    seen (fun t => (t.pc, t.sp, t.p, rawRead 0x01FF t, t.cycles))
      (at_ 0x8000 [0x48] [] { State.reset with a := 0x99 }) =
    some (0x8001, 0xFE, 0x20, 0x99, 3) := by decide

theorem test_pha_V44_8 :
    seen (fun t => (t.pc, t.sp, t.p, rawRead 0x0100 t, t.cycles))
      (at_ 0x8000 [0x48] [] { State.reset with a := 0x42, sp := 0x00 }) =
    some (0x8001, 0xFF, 0x20, 0x42, 3) := by decide

theorem test_pla_V44_9 :
    seen (fun t => (t.pc, t.sp, t.p, t.cycles))
      (at_ 0x8000 [0x68] [(0x01FF, 0x00)] { State.reset with sp := 0xFE }) =
    some (0x8001, 0xFF, 0x22, 4) := by decide

theorem test_pla_V44_10 :
    seen (fun t => (t.pc, t.sp, t.a, t.p, t.cycles))
      (at_ 0x8000 [0x68] [(0x0100, 0x80)] { State.reset with sp := 0xFF }) =
    some (0x8001, 0x00, 0x80, 0xA0, 4) := by decide

theorem test_php_V44_11 :
    seen (fun t => (t.pc, t.sp, t.p, rawRead 0x01FF t, t.cycles))
      (at_ 0x8000 [0x08] [] State.reset) =
    some (0x8001, 0xFE, 0x20, 0x30, 3) := by decide

theorem test_php_V44_12 :
    seen (fun t => (t.pc, t.sp, t.p, rawRead 0x0180 t, t.cycles))
      (at_ 0x8000 [0x08] [] { State.reset with p := 0xEF, sp := 0x80 }) =
    some (0x8001, 0x7F, 0xEF, 0xFF, 3) := by decide

theorem test_plp_V44_13 :
    seen (fun t => (t.pc, t.sp, t.p, t.cycles))
      (at_ 0x8000 [0x28] [(0x01FF, 0xFF)] { State.reset with sp := 0xFE }) =
    some (0x8001, 0xFF, 0xEF, 4) := by decide

theorem test_plp_V44_14 :
    seen (fun t => (t.pc, t.sp, t.p, t.cycles))
      (at_ 0x8000 [0x28] [(0x01FF, 0x00)] { State.reset with sp := 0xFE, p := 0xE3 }) =
    some (0x8001, 0xFF, 0x20, 4) := by decide

theorem test_bpl_V45_1 :
    seen (fun t => (t.pc, t.p, t.cycles))
      (at_ 0x8000 [0x10, 0x05] [] { State.reset with p := 0x20 }) =
    some (0x8007, 0x20, 3) := by decide

theorem test_bpl_V45_2 :
    seen (fun t => (t.pc, t.p, t.cycles))
      (at_ 0x8000 [0x10, 0x05] [] { State.reset with p := 0xA0 }) =
    some (0x8002, 0xA0, 2) := by decide

theorem test_bmi_V45_3 :
    seen (fun t => (t.pc, t.p, t.cycles))
      (at_ 0x8000 [0x30, 0xFE] [] { State.reset with p := 0xA0 }) =
    some (0x8000, 0xA0, 3) := by decide

theorem test_bvc_V45_4 :
    seen (fun t => (t.pc, t.p, t.cycles))
      (at_ 0x8000 [0x50, 0x7F] [] { State.reset with p := 0x20 }) =
    some (0x8081, 0x20, 3) := by decide

theorem test_bvs_V45_5 :
    seen (fun t => (t.pc, t.p, t.cycles))
      (at_ 0x8000 [0x70, 0x80] [] { State.reset with p := 0x60 }) =
    some (0x7F82, 0x60, 4) := by decide

theorem test_bcc_V45_6 :
    seen (fun t => (t.pc, t.p, t.cycles))
      (at_ 0x8000 [0x90, 0x02] [] { State.reset with p := 0x21 }) =
    some (0x8002, 0x21, 2) := by decide

theorem test_bcs_V45_7 :
    seen (fun t => (t.pc, t.p, t.cycles))
      (at_ 0x80FD [0xB0, 0x02] [] { State.reset with p := 0x21 }) =
    some (0x8101, 0x21, 4) := by decide

theorem test_bne_V45_8 :
    seen (fun t => (t.pc, t.p, t.cycles))
      (at_ 0x80FE [0xD0, 0x01] [] { State.reset with p := 0x20 }) =
    some (0x8101, 0x20, 3) := by decide

theorem test_beq_V45_9 :
    seen (fun t => (t.pc, t.p, t.cycles))
      (at_ 0x8000 [0xF0, 0x00] [] { State.reset with p := 0x22 }) =
    some (0x8002, 0x22, 3) := by decide

theorem test_bne_V45_10 :
    seen (fun t => (t.pc, t.p, t.cycles))
      (at_ 0x0000 [0xD0, 0x80] [] { State.reset with p := 0x20 }) =
    some (0xFF82, 0x20, 4) := by decide

theorem test_jmp_V45_12 :
    seen (fun t => (t.pc, t.p, t.cycles))
      (at_ 0x8000 [0x4C, 0x34, 0x12] [] State.reset) =
    some (0x1234, 0x20, 3) := by decide

theorem test_jmp_V45_13 :
    seen (fun t => (t.pc, t.p, t.cycles))
      (at_ 0xFFFE [0x4C, 0x00, 0x80] [] State.reset) =
    some (0x8000, 0x20, 3) := by decide

theorem test_jsr_V45_14 :
    seen (fun t => (t.pc, t.sp, t.p, [rawRead 0x01FF t, rawRead 0x01FE t], t.cycles))
      (at_ 0x8000 [0x20, 0x00, 0x90] [] State.reset) =
    some (0x9000, 0xFD, 0x20, [0x80, 0x02], 6) := by decide +kernel

theorem test_jsr_V45_15 :
    seen (fun t => (t.pc, t.sp, t.p, [rawRead 0x0100 t, rawRead 0x01FF t], t.cycles))
      (at_ 0x8000 [0x20, 0x00, 0x90] [] { State.reset with sp := 0x00 }) =
    some (0x9000, 0xFE, 0x20, [0x80, 0x02], 6) := by decide +kernel

theorem test_rts_V45_17 :
    seen (fun t => (t.pc, t.sp, t.p, t.cycles))
      (at_ 0x8000 [0x60] [(0x01FE, 0xFF), (0x01FF, 0xFF)] { State.reset with sp := 0xFD }) =
    some (0x0000, 0xFF, 0x20, 6) := by decide +kernel

theorem test_rts_V45_18 :
    seen (fun t => (t.pc, t.sp, t.p, t.cycles))
      (at_ 0x8000 [0x60] [(0x0100, 0x34), (0x0101, 0x12)] { State.reset with sp := 0xFF }) =
    some (0x1235, 0x01, 0x20, 6) := by decide +kernel

theorem test_clc_V46_1 :
    seen (fun t => (t.pc, t.p, t.cycles))
      (at_ 0x8000 [0x18] [] { State.reset with p := 0xE3 }) =
    some (0x8001, 0xE2, 2) := by decide

theorem test_sec_V46_2 :
    seen (fun t => (t.pc, t.p, t.cycles))
      (at_ 0x8000 [0x38] [] State.reset) =
    some (0x8001, 0x21, 2) := by decide

theorem test_sec_V46_3 :
    seen (fun t => (t.pc, t.p, t.cycles))
      (at_ 0x8000 [0x38] [] { State.reset with p := 0xEE }) =
    some (0x8001, 0xEF, 2) := by decide

theorem test_cli_V46_4 :
    seen (fun t => (t.pc, t.p, t.cycles))
      (at_ 0x8000 [0x58] [] { State.reset with p := 0x24 }) =
    some (0x8001, 0x20, 2) := by decide

theorem test_sei_V46_5 :
    seen (fun t => (t.pc, t.p, t.cycles))
      (at_ 0x8000 [0x78] [] State.reset) =
    some (0x8001, 0x24, 2) := by decide

theorem test_clv_V46_6 :
    seen (fun t => (t.pc, t.p, t.cycles))
      (at_ 0x8000 [0xB8] [] { State.reset with p := 0x61 }) =
    some (0x8001, 0x21, 2) := by decide

theorem test_cld_V46_7 :
    seen (fun t => (t.pc, t.p, t.cycles))
      (at_ 0x8000 [0xD8] [] { State.reset with p := 0x28 }) =
    some (0x8001, 0x20, 2) := by decide

theorem test_sed_V46_8 :
    seen (fun t => (t.pc, t.p, t.cycles))
      (at_ 0x8000 [0xF8] [] State.reset) =
    some (0x8001, 0x28, 2) := by decide

theorem test_nop_V46_9 :
    seen (fun t => (t.pc, t.p, t.cycles))
      (at_ 0x8000 [0xEA] [] { State.reset with a := 0x12, p := 0xA3 }) =
    some (0x8001, 0xA3, 2) := by decide

/-- V41-5, V41-7 in modes those vectors do not use, with the default cost of the mode. -/
theorem test_other_modes_load_1 :
    seen (fun t => (t.x, t.p, t.cycles))
        (at_ 0x8000 [0xA6, 0x10] [(0x0010, 0x00)] { State.reset with x := 0x12 }) =
      some (0x00, 0x22, 3) ∧
    seen (fun t => (t.y, t.p, t.cycles))
        (at_ 0x8000 [0xA4, 0x10] [(0x0010, 0x90)] State.reset) =
      some (0x90, 0xA0, 3) ∧
    seen (fun t => (t.y, t.p, t.cycles))
        (at_ 0x8000 [0xAC, 0x00, 0x03] [(0x0300, 0x90)] State.reset) =
      some (0x90, 0xA0, 4) := by decide +kernel

/-- V42-6, V42-7 in modes those vectors do not use, with the default cost of the mode. -/
theorem test_other_modes_add_subtract_1 :
    seen (fun t => (t.a, t.p, t.cycles))
        (at_ 0x8000 [0x6D, 0x00, 0x03] [(0x0300, 0xFE)] { State.reset with a := 0x01, p := 0x21 }) =
      some (0x00, 0x23, 4) ∧
    seen (fun t => (t.a, t.p, t.cycles))
        (at_ 0x8000 [0xE5, 0x10] [(0x0010, 0xF0)] { State.reset with a := 0x50, p := 0x21 }) =
      some (0x60, 0x20, 3) ∧
    seen (fun t => (t.a, t.p, t.cycles))
        (at_ 0x8000 [0xED, 0x00, 0x03] [(0x0300, 0xF0)] { State.reset with a := 0x50, p := 0x21 }) =
      some (0x60, 0x20, 4) ∧
    seen (fun t => (t.a, t.p, t.cycles))
        (at_ 0x8000 [0xFD, 0xFF, 0x02] [(0x0300, 0xF0)] { State.reset with a := 0x50, p := 0x21, x := 0x01 }) =
      some (0x60, 0x20, 4) := by decide +kernel

/-- V42-13, V42-17, V42-18 in modes those vectors do not use, with the default cost of the mode. -/
theorem test_other_modes_compare_1 :
    seen (fun t => (t.a, t.p, t.cycles))
        (at_ 0x8000 [0xC5, 0x10] [(0x0010, 0x20)] { State.reset with a := 0x10 }) =
      some (0x10, 0xA0, 3) ∧
    seen (fun t => (t.a, t.p, t.cycles))
        (at_ 0x8000 [0xCD, 0x00, 0x03] [(0x0300, 0x20)] { State.reset with a := 0x10 }) =
      some (0x10, 0xA0, 4) ∧
    seen (fun t => (t.a, t.p, t.cycles))
        (at_ 0x8000 [0xDD, 0xFF, 0x02] [(0x0300, 0x20)] { State.reset with a := 0x10, x := 0x01 }) =
      some (0x10, 0xA0, 4) ∧
    seen (fun t => (t.x, t.p, t.cycles))
        (at_ 0x8000 [0xE4, 0x10] [(0x0010, 0x05)] { State.reset with x := 0x05 }) =
      some (0x05, 0x23, 3) ∧
    seen (fun t => (t.y, t.p, t.cycles))
        (at_ 0x8000 [0xC4, 0x10] [(0x0010, 0x00)] { State.reset with y := 0x01 }) =
      some (0x01, 0x21, 3) := by decide +kernel

/-- V42-13, V42-17, V42-18 in modes those vectors do not use, with the default cost of the mode. -/
theorem test_other_modes_compare_2 :
    seen (fun t => (t.y, t.p, t.cycles))
        (at_ 0x8000 [0xCC, 0x00, 0x03] [(0x0300, 0x00)] { State.reset with y := 0x01 }) =
      some (0x01, 0x21, 4) := by decide +kernel

/-- V43-2, V43-3, V43-6 in modes those vectors do not use, with the default cost of the mode. -/
theorem test_other_modes_logic_1 :
    seen (fun t => (t.a, t.p, t.cycles))
        (at_ 0x8000 [0x25, 0x10] [(0x0010, 0xC0)] { State.reset with a := 0x81 }) =
      some (0x80, 0xA0, 3) ∧
    seen (fun t => (t.a, t.p, t.cycles))
        (at_ 0x8000 [0x2D, 0x00, 0x03] [(0x0300, 0xC0)] { State.reset with a := 0x81 }) =
      some (0x80, 0xA0, 4) ∧
    seen (fun t => (t.a, t.p, t.cycles))
        (at_ 0x8000 [0x3D, 0xFF, 0x02] [(0x0300, 0xC0)] { State.reset with a := 0x81, x := 0x01 }) =
      some (0x80, 0xA0, 4) ∧
    seen (fun t => (t.a, t.p, t.cycles))
        (at_ 0x8000 [0x05, 0x10] [(0x0010, 0x80)] { State.reset with a := 0x01 }) =
      some (0x81, 0xA0, 3) ∧
    seen (fun t => (t.a, t.p, t.cycles))
        (at_ 0x8000 [0x0D, 0x00, 0x03] [(0x0300, 0x80)] { State.reset with a := 0x01 }) =
      some (0x81, 0xA0, 4) := by decide +kernel

/-- V43-2, V43-3, V43-6 in modes those vectors do not use, with the default cost of the mode. -/
theorem test_other_modes_logic_2 :
    seen (fun t => (t.a, t.p, t.cycles))
        (at_ 0x8000 [0x1D, 0xFF, 0x02] [(0x0300, 0x80)] { State.reset with a := 0x01, x := 0x01 }) =
      some (0x81, 0xA0, 4) ∧
    seen (fun t => (t.a, t.p, t.cycles))
        (at_ 0x8000 [0x45, 0x10] [(0x0010, 0x0F)] { State.reset with a := 0x7F }) =
      some (0x70, 0x20, 3) ∧
    seen (fun t => (t.a, t.p, t.cycles))
        (at_ 0x8000 [0x4D, 0x00, 0x03] [(0x0300, 0x0F)] { State.reset with a := 0x7F }) =
      some (0x70, 0x20, 4) ∧
    seen (fun t => (t.a, t.p, t.cycles))
        (at_ 0x8000 [0x5D, 0xFF, 0x02] [(0x0300, 0x0F)] { State.reset with a := 0x7F, x := 0x01 }) =
      some (0x70, 0x20, 4) := by decide +kernel

/-- V43-8, V43-10, V43-12, V43-14, V43-15, V43-17 in modes those vectors do not use, with the default cost of the mode. -/
theorem test_other_modes_modify_1 :
    seen (fun t => (rawRead 0x0300 t, t.p, t.cycles))
        (at_ 0x8000 [0x0E, 0x00, 0x03] [(0x0300, 0x41)] State.reset) =
      some (0x82, 0xA0, 6) ∧
    seen (fun t => (rawRead 0x0300 t, t.p, t.cycles))
        (at_ 0x8000 [0x1E, 0xFF, 0x02] [(0x0300, 0x41)] { State.reset with x := 0x01 }) =
      some (0x82, 0xA0, 7) ∧
    seen (fun t => (rawRead 0x0010 t, t.p, t.cycles))
        (at_ 0x8000 [0x46, 0x10] [(0x0010, 0x80)] { State.reset with p := 0xA0 }) =
      some (0x40, 0x20, 5) ∧
    seen (fun t => (rawRead 0x0300 t, t.p, t.cycles))
        (at_ 0x8000 [0x5E, 0xFF, 0x02] [(0x0300, 0x80)] { State.reset with p := 0xA0, x := 0x01 }) =
      some (0x40, 0x20, 7) ∧
    seen (fun t => (rawRead 0x0300 t, t.p, t.cycles))
        (at_ 0x8000 [0x2E, 0x00, 0x03] [(0x0300, 0x40)] State.reset) =
      some (0x80, 0xA0, 6) := by decide +kernel

/-- V43-8, V43-10, V43-12, V43-14, V43-15, V43-17 in modes those vectors do not use, with the default cost of the mode. -/
theorem test_other_modes_modify_2 :
    seen (fun t => (rawRead 0x0300 t, t.p, t.cycles))
        (at_ 0x8000 [0x3E, 0xFF, 0x02] [(0x0300, 0x40)] { State.reset with x := 0x01 }) =
      some (0x80, 0xA0, 7) ∧
    seen (fun t => (rawRead 0x0010 t, t.p, t.cycles))
        (at_ 0x8000 [0x66, 0x10] [(0x0010, 0x02)] State.reset) =
      some (0x01, 0x20, 5) ∧
    seen (fun t => (rawRead 0x0300 t, t.p, t.cycles))
        (at_ 0x8000 [0x6E, 0x00, 0x03] [(0x0300, 0x02)] State.reset) =
      some (0x01, 0x20, 6) ∧
    seen (fun t => (rawRead 0x0300 t, t.p, t.cycles))
        (at_ 0x8000 [0xFE, 0xFF, 0x02] [(0x0300, 0xFF)] { State.reset with x := 0x01 }) =
      some (0x00, 0x22, 7) ∧
    seen (fun t => (rawRead 0x0300 t, t.p, t.cycles))
        (at_ 0x8000 [0xCE, 0x00, 0x03] [(0x0300, 0x00)] State.reset) =
      some (0xFF, 0xA0, 6) := by decide +kernel

/-! ## The bus, the exception, the timing engine, reset and launch -/

/-- V20-3: a write to the status register stores; the read after it returns the byte and then clears. -/
theorem test_V20_3 :
    (memRead 0x2002 (memWrite 0x2002 0x80 (put [(0x2005, 0x12), (0x2006, 0x34)] State.reset))).1 = 0x80 ∧
    (memRead 0x2002 (memWrite 0x2002 0x80 (put [(0x2005, 0x12), (0x2006, 0x34)] State.reset))).2.mem = [] := by decide

/-- V20-4: raw accesses fire no observer. -/
theorem test_V20_4 :
    (rawWrite 0x2002 0xC0 (put [(0x2002, 0x80), (0x2005, 0x12)] State.reset)).mem = [(0x2002, 0xC0), (0x2005, 0x12)] := by
  decide

/-- V60-4 and V60-3: a documented opcode of another mode, and RTI. -/
theorem test_V60_3_V60_4 :
    seen (fun t => (t.pc, t.p, t.cycles, t.halted)) (at_ 0x8000 [0xB9, 0x00, 0x03] [] State.reset) =
      some (0x8001, 0x20, 0, some (.unsupportedOpcode 0xB9 ⟨0x8001, 0xFF, 0, 0, 0, 0x20⟩)) ∧
    seen (fun t => (t.pc, t.p, t.cycles, t.halted)) (at_ 0x1234 [0x40] [] State.reset) =
      some (0x1235, 0x20, 0, some (.unsupportedOpcode 0x40 ⟨0x1235, 0xFF, 0, 0, 0, 0x20⟩)) := by decide

/-- V60-5: NOP in the smallest implemented set. -/
theorem test_V60_5 :
    seen (fun t => (t.pc, t.cycles, t.halted.isSome))
      (at_ 0x8000 [0xEA] []
        { State.reset with cfg := { defaultConfig with handlers := [(0xA9, 2), (0x8D, 4), (0x38, 2)] } }) =
    some (0x8001, 0, true) := by decide

/-- V60-6: the opcode fetch at the status address fires the observer, though the step faults. -/
theorem test_V60_6 :
    seen (fun t => (t.pc, t.mem, t.halted.isSome)) (at_ 0x2002 [0x02] [(0x2005, 0x12)] State.reset) =
    some (0x2003, [(0x2002, 0x02)], true) := by decide

/-- T1 to T6, T8, T9. -/
theorem test_timing :
    ticked 6819 false 0xC5 = (6820, 20, false, 0x45) ∧
    ticked 6819 true 0xFF = (6820, 20, false, 0x7F) ∧
    ticked 6820 false 0x80 = (6821, 20, false, 0x00) ∧
    ticked 7160 false 0x80 = (7161, 21, false, 0x80) ∧
    ticked 89000 false 0x00 = (89001, 261, true, 0x80) ∧
    ticked 89100 true 0x00 = (89101, 261, true, 0x80) ∧
    ticked 89341 true 0x80 = (0, 0, true, 0x80) ∧
    ticked 100 true 0x00 = (101, 0, true, 0x00) := by decide

/-- V70-1. -/
theorem test_V70_1 :
    cpuReset { State.reset with pc := 0x1234, sp := 0x10, a := 1, x := 2, y := 3, p := 0xEF, counter := 7 } =
    { State.reset with counter := 7 } := by decide +kernel

/-- V70-2 and V70-3: six timing steps after a load, none after an unsupported opcode. -/
theorem test_V70_2_V70_3 :
    seen (fun t => (t.a, t.counter.val)) (at_ 0x8000 [0xA9, 0x42] [] State.reset) = some (0x42, 6) ∧
    seen (fun t => (t.halted.isSome, t.counter.val)) (at_ 0x8000 [0x02] [] State.reset) = some (true, 0) := by decide

/-- V70-6 and V70-7: a wrong magic, and a bank count of 3. -/
theorem test_V70_6_V70_7 :
    launch defaultConfig [] ([0x4E, 0x45, 0x5A, 0x1A, 0x01] ++ List.replicate 11 0) = .error .malformedImage ∧
    launch defaultConfig [] ([0x4E, 0x45, 0x53, 0x1A, 0x03] ++ List.replicate 11 0) = .error (.bankCountRefused 3) := by
  decide

/-- R246, R247 on banks of two bytes: a copy to both windows, or two banks to one each. -/
theorem test_load :
    Memory.load 0xC000 [0xA9, 0x01] (Memory.load 0x8000 [0xA9, 0x01] []) =
      [(0x8000, 0xA9), (0x8001, 0x01), (0xC000, 0xA9), (0xC001, 0x01)] := by decide

/-! ## Witnesses: states and operands that meet the hypotheses of the statements -/

/-- A state about to run `LDA #$42`. -/
def loading : State := at_ 0x8000 [0xA9, 0x42] [] State.reset

/-- An image that counts `count` program banks and no pattern bank, with `n` bytes, every one NOP, after the header. -/
def image (count : Byte) (n : Nat) : Image :=
  [0x4E, 0x45, 0x53, 0x1A, count] ++ (List.replicate 11 0 ++ List.replicate n 0xEA)

theorem image_launches (count : Byte) (n : Nat) (hc : count.toNat = 1 ∨ count.toNat = 2)
    (hn : n = 16384 * count.toNat) : ∃ r, launch defaultConfig [] (image count n) = .ok r := by
  have hm : hasMagic (image count n) = true := by simp [image, hasMagic]
  have h4 : bankCount (image count n) 4 = count.toNat := by simp [image, bankCount, imageByte]
  have h5 : bankCount (image count n) 5 = 0 := rfl
  have hl : (image count n).length = 16 + n := by simp [image]; omega
  refine ⟨⟨construct defaultConfig (loadBanks (image count n) []), patternBytes (image count n)⟩, ?_⟩
  unfold launch
  rw [if_neg (by simp [hm, hl, headerLength]), if_neg (by rw [h4]; omega),
    if_neg (by rw [expectedLength, h4, h5, hl, hn]; simp [headerLength, programBankSize])]

/-- With one bank and with two. -/
theorem test_witness_LaunchCopiesTheProgramBanks :
    (∃ r, launch defaultConfig [] (image 1 16384) = .ok r) ∧ ∃ r, launch defaultConfig [] (image 2 32768) = .ok r :=
  ⟨image_launches 1 16384 (.inl rfl) rfl, image_launches 2 32768 (.inr rfl) rfl⟩

theorem test_witness_LaunchRefusesMalformedImages :
    ([0x4E, 0x45, 0x5A] : Image).take 3 ≠ [0x4E, 0x45, 0x53] ∧
    (∃ img : Image, img.take 3 = [0x4E, 0x45, 0x53] ∧ 16 ≤ img.length ∧ img[4]? = some 0 ∧
      (0 : Byte) ≠ 1 ∧ (0 : Byte) ≠ 2) ∧
    (∃ img : Image, img.take 3 = [0x4E, 0x45, 0x53] ∧ 16 ≤ img.length ∧ img[4]? = some 3 ∧
      (3 : Byte) ≠ 1 ∧ (3 : Byte) ≠ 2) ∧
    (∃ img : Image, img.take 3 = [0x4E, 0x45, 0x53] ∧ img[4]? = some 1 ∧ img[5]? = some 0 ∧
      img.length ≠ 16 + 16384 * (1 : Byte).toNat + 8192 * (0 : Byte).toNat) :=
  ⟨by decide, ⟨[0x4E, 0x45, 0x53, 0x1A, 0] ++ List.replicate 11 0, by decide⟩,
    ⟨[0x4E, 0x45, 0x53, 0x1A, 3] ++ List.replicate 11 0, by decide⟩, ⟨[0x4E, 0x45, 0x53, 0x1A, 1, 0], by decide⟩⟩

/-- For WriteThenReadReturnsTheByte: the invariant, and the two ends of the inert range. -/
theorem test_witness_WriteThenReadReturnsTheByte :
    State.reset.Inv ∧ 0x4000 ≤ (0x4000 : Word).toNat ∧ (0x4000 : Word).toNat ≤ 0x4017 ∧
    0x4000 ≤ (0x4017 : Word).toNat ∧ (0x4017 : Word).toNat ≤ 0x4017 :=
  ⟨⟨rfl, rfl, rfl, rfl, by decide +kernel⟩, by decide⟩

/-- For ResetSatisfiesTheMachineInvariant. -/
theorem test_witness_ResetSatisfiesTheMachineInvariant : defaultConfig.wf = true ∧ Memory.wf [] = true := by
  decide +kernel

theorem test_reset_inv : State.reset.Inv := ⟨rfl, rfl, rfl, rfl, by decide +kernel⟩

theorem test_witness_StepKeepsTheMachineInvariant : loading.Inv ∧ ∃ t, step loading = .next t :=
  ⟨⟨by decide, by decide, by decide, by decide, by decide +kernel⟩, _, rfl⟩

theorem test_witness_CanonicalMemoriesWithEqualReadsAreEqual :
    (Memory.write [] 0xFFFF 7).wf = true ∧ Memory.wf [(0xFFFF, 7)] = true ∧
    ∀ b : Word, (Memory.write [] 0xFFFF 7).read b.toNat = Memory.read [(0xFFFF, 7)] b.toNat :=
  ⟨by decide, by decide, fun _ => rfl⟩

theorem test_witness_FetchedBytesAreThoseAtPc :
    ∀ k, k < 3 → observerAt (BitVec.ofNat 16 (State.reset.pc.toNat + k)) State.reset.registry = none := by decide

theorem test_witness_StepRunsTheDecodedInstruction :
    loading.halted = none ∧ decode [0xA9, 0x42] = .ok (.ldaImm 0x42, []) ∧
    fetchBytes 2 loading = ([0xA9, 0x42], { loading with pc := 0x8002 }) ∧
    loading.cfg.handler (Instr.ldaImm 0x42).opcode = some 2 := by decide

theorem test_witness_UnsupportedOpcodeHalts :
    State.reset.halted = none ∧ State.reset.cfg.handler (rawRead State.reset.pc State.reset) = none := by decide

theorem test_witness_HaltedMachineRunsNoStep :
    { State.reset with halted := some (.unsupportedOpcode 0x02 (snapshot State.reset)) }.halted =
      some (.unsupportedOpcode 0x02 (snapshot State.reset)) := rfl

theorem test_witness_StepHaltsExactlyOnUnimplementedOpcodes :
    loading.halted = none ∧ loading.cfg.wf = true ∧ State.reset.halted = none ∧ State.reset.cfg.wf = true := by
  decide +kernel

/-- For StepAdvancesTheCounterThreePerCycle, StepCostsTwoToSevenCyclesByDefault and
StepChangesNeitherRegistryNorParameters. -/
theorem test_witness_running_step :
    loading.cfg.handlers = defaultConfig.handlers ∧ loading.cfg.pagePenalty = [0xBD] ∧
    ∃ t, step loading = .next t ∧ t.halted = none := ⟨rfl, rfl, _, rfl, by decide⟩

/-- The two ends of each band, and the wrap. -/
theorem test_witness_TimingStepActsOnTheScanlineBand :
    (∃ c d : Fin frameDots, d.val = (c.val + 1) % 89342 ∧ d.val = 6820 ∧ d.val / 341 = 20) ∧
    (∃ c d : Fin frameDots, d.val = (c.val + 1) % 89342 ∧ d.val = 7160 ∧ d.val / 341 = 20) ∧
    (∃ c d : Fin frameDots, d.val = (c.val + 1) % 89342 ∧ d.val = 89001 ∧ 260 < d.val / 341) ∧
    (∃ c d : Fin frameDots, d.val = (c.val + 1) % 89342 ∧ d.val = 89341 ∧ 260 < d.val / 341) ∧
    (∃ c d : Fin frameDots, d.val = (c.val + 1) % 89342 ∧ d.val = 0 ∧ d.val / 341 ≠ 20 ∧ d.val / 341 ≤ 260) ∧
    (∃ c d : Fin frameDots, d.val = (c.val + 1) % 89342 ∧ d.val = 6819 ∧ d.val / 341 ≠ 20 ∧ d.val / 341 ≤ 260) ∧
    (∃ c d : Fin frameDots, d.val = (c.val + 1) % 89342 ∧ d.val = 7161 ∧ d.val / 341 ≠ 20 ∧ d.val / 341 ≤ 260) ∧
    (∃ c d : Fin frameDots, d.val = (c.val + 1) % 89342 ∧ d.val = 89000 ∧ d.val / 341 ≠ 20 ∧ d.val / 341 ≤ 260) :=
  ⟨⟨6819, 6820, by decide⟩, ⟨7159, 7160, by decide⟩, ⟨89000, 89001, by decide⟩, ⟨89340, 89341, by decide⟩,
    ⟨89341, 0, by decide⟩, ⟨6818, 6819, by decide⟩, ⟨7160, 7161, by decide⟩, ⟨88999, 89000, by decide⟩⟩

theorem test_witness_VblankTimelineOverAllFrames : State.reset.counter.val = 0 ∧ State.reset.vblank = false := by decide

theorem test_witness_RegistersChangeOnlyByTheirWriters :
    writesA .nop = false ∧ writesX .nop = false ∧ writesY .nop = false ∧ writesSP .nop = false ∧
    ∃ t, exec .nop State.reset = .next t := ⟨rfl, rfl, rfl, rfl, _, rfl⟩

theorem test_witness_FlagsChangeOnlyByTheirWriters :
    writesC .nop = false ∧ yieldsNoResult .nop = true ∧ writesI .nop = false ∧ writesD .nop = false ∧
    writesV .nop = false ∧ Instr.nop ≠ .plp ∧ (∃ t, exec .nop State.reset = .next t) ∧
    ∃ t, exec .plp State.reset = .next t := ⟨rfl, rfl, rfl, rfl, rfl, by decide, ⟨_, rfl⟩, _, rfl⟩

theorem test_witness_OnlyStoringInstructionsWriteMemory :
    storesToMemory (.ldaAbs 0x2002) = false ∧ (∃ t, exec (.ldaAbs 0x2002) State.reset = .next t) ∧
    ((0x2003 : Word) ≠ State.reset.cfg.statusAddr ∧ (0x2003 : Word) ≠ State.reset.cfg.latchA ∧
      (0x2003 : Word) ≠ State.reset.cfg.latchB) ∧ { State.reset with registry := [] }.registry = [] :=
  ⟨rfl, ⟨_, rfl⟩, by decide, rfl⟩

theorem test_witness_InterruptAndDecimalFlagsAreInert :
    Instr.adcImm 0x01 ≠ .php ∧ ∀ k, k ≠ 2 → k ≠ 3 → (0x2C : Byte).getLsbD k = State.reset.p.getLsbD k := by
  refine ⟨by decide, fun k h2 h3 => ?_⟩
  by_cases hk : k < 8
  · interval_cases k <;> first | rfl | contradiction
  · rw [BitVec.getLsbD_of_ge _ _ (by omega), BitVec.getLsbD_of_ge _ _ (by omega)]

theorem test_witness_CpuStepNeverReadsTheTimingState : ∃ t, cpuStep loading = .next t := ⟨_, rfl⟩

theorem test_witness_DecodedBytesAreTheEncoding : decode [0x8D, 0x00, 0x20, 0xEA] = .ok (.staAbs 0x2000, [0xEA]) := by
  decide

/-- The least and the greatest byte of each list, and a byte of none. -/
theorem test_witness_DecodeRejectsExactlyTheUnsupportedOpcodes :
    (0x00 : Byte) ∈ [(0x00 : Byte), 0x40] ∧ (0x01 : Byte) ∈ listedOtherModes ∧ (0xF9 : Byte) ∈ listedOtherModes ∧
    (0x02 : Byte) ∈ listedUndocumented ∧ (0xFF : Byte) ∈ listedUndocumented ∧
    (0x05 : Byte) ∉ [(0x00 : Byte), 0x40] ∧ (0x05 : Byte) ∉ listedOtherModes ∧ (0x05 : Byte) ∉ listedUndocumented := by
  decide +kernel

theorem test_witness_LengthDependsOnTheOpcodeAlone : (Instr.ldaImm 0x00).opcode = (Instr.ldaImm 0xFF).opcode := rfl

theorem test_witness_StoredByteIsTheNextOneFetched :
    ∃ t, exec (.staAbs State.reset.pc) State.reset = .next t := ⟨_, rfl⟩

theorem test_witness_PushThenPullRestores :
    State.reset.p.getLsbD 4 = false ∧ State.reset.p.getLsbD 5 = true := by decide

/-- Every condition bit clear, and every condition bit set: each branch is taken in one and not in the other. -/
theorem test_witness_BranchesFollowTheirFlag :
    (∀ k ∈ [0, 1, 6, 7], State.reset.p.getLsbD k = false) ∧
    ∀ k ∈ [0, 1, 6, 7], { State.reset with p := 0xE3 }.p.getLsbD k = true := by decide

theorem test_witness_JsrPushesTheReturnAddressLessOne : State.reset.pc - 1 = littleEndian 0xFF 0x7F := by decide

theorem test_witness_JsrThenRtsReturns :
    ∀ q : Byte, observerAt (stackAt q) State.reset.registry = none := by decide +kernel


end Sys2Proof.Tests
end

section
/-! PROOFS. What one execution leaves unchanged, field by field and flag by flag (spec/10_state.md R21 to R28, R36):
each theorem splits on the instruction and lets the laws of its effect and its operand form close the case. Where a
writer list is a hypothesis, splitting on it too discharges the writers, for which it reads `true = false`. -/

namespace Sys2Proof.Machine

open Sys2Proof.Statements

/-! ## Every bit of P after a shift, a rotate, an increment or a decrement -/

/-- Every bit of a status byte after ASL (R153). -/
theorem aslOp_bit (v p : Byte) (k : Nat) :
    (aslOp v p).2.getLsbD k =
      if k = 7 then (v <<< 1).msb else if k = 1 then v <<< 1 == 0 else if k = 0 then v.getLsbD 7
      else p.getLsbD k := by
  simp only [aslOp, setZN_bit, putFlag_bit]
  rfl

/-- Every bit of a status byte after LSR (R154). -/
theorem lsrOp_bit (v p : Byte) (k : Nat) :
    (lsrOp v p).2.getLsbD k =
      if k = 7 then (v >>> 1).msb else if k = 1 then v >>> 1 == 0 else if k = 0 then v.getLsbD 0
      else p.getLsbD k := by
  simp only [lsrOp, setZN_bit, putFlag_bit]
  rfl

/-- Every bit of a status byte after ROL (R155). -/
theorem rolOp_bit (v p : Byte) (k : Nat) :
    (rolOp v p).2.getLsbD k =
      if k = 7 then (rolOp v p).1.msb else if k = 1 then (rolOp v p).1 == 0 else if k = 0 then v.getLsbD 7
      else p.getLsbD k := by
  simp only [rolOp, setZN_bit, putFlag_bit]
  rfl

/-- Every bit of a status byte after ROR (R156). -/
theorem rorOp_bit (v p : Byte) (k : Nat) :
    (rorOp v p).2.getLsbD k =
      if k = 7 then (rorOp v p).1.msb else if k = 1 then (rorOp v p).1 == 0 else if k = 0 then v.getLsbD 0
      else p.getLsbD k := by
  simp only [rorOp, setZN_bit, putFlag_bit]
  rfl

/-- Every bit of a status byte after INC, INX or INY (R157). -/
theorem incOp_bit (v p : Byte) (k : Nat) :
    (incOp v p).2.getLsbD k = if k = 7 then (v + 1).msb else if k = 1 then v + 1 == 0 else p.getLsbD k :=
  setZN_bit (v + 1) p k

/-- Every bit of a status byte after DEC, DEX or DEY (R158). -/
theorem decOp_bit (v p : Byte) (k : Nat) :
    (decOp v p).2.getLsbD k = if k = 7 then (v - 1).msb else if k = 1 then v - 1 == 0 else p.getLsbD k :=
  setZN_bit (v - 1) p k

/-! ## Registers -/

/-- A is written only by the instructions R21 lists. -/
theorem exec_a_of_not_writesA {i : Instr} {s t : State} (h : exec i s = .next t) (hw : writesA i = false) :
    t.a = s.a := by
  cases i <;> cases h <;> cases hw <;> simp

/-- X is written only by the instructions R22 lists. -/
theorem exec_x_of_not_writesX {i : Instr} {s t : State} (h : exec i s = .next t) (hw : writesX i = false) :
    t.x = s.x := by
  cases i <;> cases h <;> cases hw <;> simp

/-- Y is written only by the instructions R23 lists. -/
theorem exec_y_of_not_writesY {i : Instr} {s t : State} (h : exec i s = .next t) (hw : writesY i = false) :
    t.y = s.y := by
  cases i <;> cases h <;> cases hw <;> simp

/-- SP is written only by the instructions R24 lists. -/
theorem exec_sp_of_not_writesSP {i : Instr} {s t : State} (h : exec i s = .next t) (hw : writesSP i = false) :
    t.sp = s.sp := by
  cases i <;> cases h <;> cases hw <;> simp

/-- No instruction touches the timing engine, the halt record, the registry or the parameters (R36, R216). -/
theorem exec_frame {i : Instr} {s t : State} (h : exec i s = .next t) :
    t.counter = s.counter ∧ t.vblank = s.vblank ∧ t.halted = s.halted ∧ t.registry = s.registry ∧
      t.cfg = s.cfg := by
  cases i <;> cases h <;> simp

/-! ## Flags

The laws of the flag computations speak of `getLsbD`, so simp must leave that form as it is. -/

/-- The instructions R26 does not list for C write Z, N, V, I, D alone. -/
theorem exec_c_of_not_writesC {i : Instr} {s t : State} (h : exec i s = .next t) (hw : writesC i = false) :
    t.p.getLsbD 0 = s.p.getLsbD 0 := by
  cases i <;> cases h <;> cases hw <;>
    simp [setZN_bit, bitTestFlags_bit, putFlag_bit, Flag.bit, incOp_bit, decOp_bit, -BitVec.getLsbD_eq_getElem]

/-- Where nothing is yielded, P is as it was or one of C, I, D, V is written. -/
theorem exec_zn_of_yieldsNoResult {i : Instr} {s t : State} (h : exec i s = .next t) (hw : yieldsNoResult i = true) :
    t.p.getLsbD 1 = s.p.getLsbD 1 ∧ t.p.getLsbD 7 = s.p.getLsbD 7 := by
  cases i <;> cases h <;> cases hw <;>
    simp [putFlag_bit, Flag.bit, -BitVec.getLsbD_eq_getElem]

/-- No flag computation writes I (R26). -/
theorem exec_i_of_not_writesI {i : Instr} {s t : State} (h : exec i s = .next t) (hw : writesI i = false) :
    t.p.getLsbD 2 = s.p.getLsbD 2 := by
  cases i <;> cases h <;> cases hw <;>
    simp [setZN_bit, compareFlags_bit, addWithCarry_bit, bitTestFlags_bit, putFlag_bit, Flag.bit, aslOp_bit,
      lsrOp_bit, rolOp_bit, rorOp_bit, incOp_bit, decOp_bit, -BitVec.getLsbD_eq_getElem]

/-- No flag computation writes D (R26). -/
theorem exec_d_of_not_writesD {i : Instr} {s t : State} (h : exec i s = .next t) (hw : writesD i = false) :
    t.p.getLsbD 3 = s.p.getLsbD 3 := by
  cases i <;> cases h <;> cases hw <;>
    simp [setZN_bit, compareFlags_bit, addWithCarry_bit, bitTestFlags_bit, putFlag_bit, Flag.bit, aslOp_bit,
      lsrOp_bit, rolOp_bit, rorOp_bit, incOp_bit, decOp_bit, -BitVec.getLsbD_eq_getElem]

/-- Of the flag computations only those of ADC, SBC and BIT write V (R26). -/
theorem exec_v_of_not_writesV {i : Instr} {s t : State} (h : exec i s = .next t) (hw : writesV i = false) :
    t.p.getLsbD 6 = s.p.getLsbD 6 := by
  cases i <;> cases h <;> cases hw <;>
    simp [setZN_bit, compareFlags_bit, putFlag_bit, Flag.bit, aslOp_bit, lsrOp_bit, rolOp_bit, rorOp_bit, incOp_bit,
      decOp_bit, -BitVec.getLsbD_eq_getElem]

/-- No flag computation writes bit 4 or bit 5 (R27, R28). -/
theorem exec_bits45_of_ne_plp {i : Instr} {s t : State} (h : exec i s = .next t) (hi : i ≠ .plp) :
    t.p.getLsbD 4 = s.p.getLsbD 4 ∧ t.p.getLsbD 5 = s.p.getLsbD 5 := by
  cases i <;> cases h
  case plp => exact absurd rfl hi
  all_goals simp [setZN_bit, compareFlags_bit, addWithCarry_bit, bitTestFlags_bit, putFlag_bit, Flag.bit,
    aslOp_bit, lsrOp_bit, rolOp_bit, rorOp_bit, incOp_bit, decOp_bit, -BitVec.getLsbD_eq_getElem]

/-- PLP forces bit 4 to 0 and bit 5 to 1 (R179). -/
theorem exec_plp_bits45 {s t : State} (h : exec .plp s = .next t) :
    t.p.getLsbD 4 = false ∧ t.p.getLsbD 5 = true := by
  cases h
  simp [pulledStatus_bit, -BitVec.getLsbD_eq_getElem]

end Sys2Proof.Machine
end

section
/-! PROOFS. Two states that an instruction cannot tell apart: every operation takes such states to such states. Both
noninterference statements of spec/10_state.md (I and D: R31, R32; the timing engine: R38) follow from it. -/

namespace Sys2Proof.Machine

/-! ## Status bytes that agree outside some hidden bits -/

/-- The two status bytes agree at every bit that is not hidden. -/
def AgreeOff (hidden : List Nat) (p q : Byte) : Prop := ∀ k, k ∉ hidden → q.getLsbD k = p.getLsbD k

section Flags

variable {hidden : List Nat} {p q : Byte}

/-- With no bit hidden, status bytes that agree are equal. -/
theorem AgreeOff.eq (h : AgreeOff [] p q) : q = p := BitVec.eq_of_getLsbD_eq fun k _ => h k (by simp)

theorem AgreeOff.getFlag (h : AgreeOff hidden p q) {f : Flag} (hf : f.bit ∉ hidden) : getFlag f q = getFlag f p :=
  h f.bit hf

theorem AgreeOff.putFlag (h : AgreeOff hidden p q) (f : Flag) (b : Bool) :
    AgreeOff hidden (putFlag f b p) (putFlag f b q) := by
  intro k hk
  rw [putFlag_bit, putFlag_bit, h k hk]

theorem AgreeOff.setZN (h : AgreeOff hidden p q) (v : Byte) : AgreeOff hidden (setZN v p) (setZN v q) :=
  (h.putFlag .z _).putFlag .n _

theorem AgreeOff.compareFlags (h : AgreeOff hidden p q) (r m : Byte) :
    AgreeOff hidden (compareFlags r m p) (compareFlags r m q) := (h.putFlag .c _).setZN _

theorem AgreeOff.bitTestFlags (h : AgreeOff hidden p q) (a m : Byte) :
    AgreeOff hidden (bitTestFlags a m p) (bitTestFlags a m q) := ((h.putFlag .z _).putFlag .n _).putFlag .v _

theorem AgreeOff.carryIn (h : AgreeOff hidden p q) (hc : 0 ∉ hidden) : carryIn q = carryIn p :=
  congrArg Bool.toNat (h.getFlag (f := .c) hc)

/-- An operation on a byte and the status byte that neither reads a hidden bit nor lets one into its result. -/
def BlindTo (hidden : List Nat) (f : Byte → Byte → Byte × Byte) : Prop :=
  ∀ v p q, AgreeOff hidden p q → (f v q).1 = (f v p).1 ∧ AgreeOff hidden (f v p).2 (f v q).2

theorem blindTo_addWithCarry (hc : 0 ∉ hidden) (a : Byte) : BlindTo hidden (addWithCarry a) := by
  intro m p q h
  simp only [addWithCarry, h.carryIn hc]
  exact ⟨trivial, ((h.putFlag .c _).putFlag .v _).setZN _⟩

theorem blindTo_aslOp : BlindTo hidden aslOp := fun _ _ _ h => ⟨rfl, (h.putFlag .c _).setZN _⟩

theorem blindTo_lsrOp : BlindTo hidden lsrOp := fun _ _ _ h => ⟨rfl, (h.putFlag .c _).setZN _⟩

theorem blindTo_rolOp (hc : 0 ∉ hidden) : BlindTo hidden rolOp := by
  intro v p q h
  simp only [rolOp, h.carryIn hc]
  exact ⟨trivial, (h.putFlag .c _).setZN _⟩

theorem blindTo_rorOp (hc : 0 ∉ hidden) : BlindTo hidden rorOp := by
  intro v p q h
  simp only [rorOp, h.carryIn hc]
  exact ⟨trivial, (h.putFlag .c _).setZN _⟩

theorem blindTo_incOp : BlindTo hidden incOp := fun _ _ _ h => ⟨rfl, h.setZN _⟩

theorem blindTo_decOp : BlindTo hidden decOp := fun _ _ _ h => ⟨rfl, h.setZN _⟩

end Flags

/-! ## States that agree on all that is not hidden -/

/-- The two states agree on every field but the timing engine's two, and on every bit of P that is not hidden. -/
def Alike (hidden : List Nat) (s u : State) : Prop :=
  ∃ q c b, u = { s with p := q, counter := c, vblank := b } ∧ AgreeOff hidden s.p q

/-- The two accesses gave the same byte, in states that agree. -/
def ReadAlike (hidden : List Nat) (r r' : Byte × State) : Prop :=
  ∃ q c b, r' = (r.1, { r.2 with p := q, counter := c, vblank := b }) ∧ AgreeOff hidden r.2.p q

section Operations

variable {hidden : List Nat} {s u : State} {r r' : Byte × State}

section Fields

variable (h : Alike hidden s u)
include h

theorem Alike.pc_eq : u.pc = s.pc := by
  obtain ⟨q, c, b, rfl, -⟩ := h
  rfl

theorem Alike.sp_eq : u.sp = s.sp := by
  obtain ⟨q, c, b, rfl, -⟩ := h
  rfl

theorem Alike.halted_eq : u.halted = s.halted := by
  obtain ⟨q, c, b, rfl, -⟩ := h
  rfl

theorem Alike.cycles_eq : u.cycles = s.cycles := by
  obtain ⟨q, c, b, rfl, -⟩ := h
  rfl

theorem Alike.cfg_eq : u.cfg = s.cfg := by
  obtain ⟨q, c, b, rfl, -⟩ := h
  rfl

end Fields

theorem ReadAlike.byte_eq (h : ReadAlike hidden r r') : r'.1 = r.1 := by
  obtain ⟨q, c, b, rfl, -⟩ := h
  rfl

theorem ReadAlike.alike (h : ReadAlike hidden r r') : Alike hidden r.2 r'.2 := by
  obtain ⟨q, c, b, rfl, hp⟩ := h
  exact ⟨q, c, b, rfl, hp⟩

/-! ### The bus, the stack, the operand forms -/

/-- The status observer reads neither P nor the timing engine. -/
theorem Alike.memRead (h : Alike hidden s u) (ea : Word) : ReadAlike hidden (memRead ea s) (memRead ea u) := by
  obtain ⟨q, c, b, rfl, hp⟩ := h
  refine ⟨q, c, b, ?_, by rwa [memRead_p]⟩
  simp only [Machine.memRead, notify]
  cases observerAt ea s.registry <;> rfl

theorem Alike.memWrite (h : Alike hidden s u) (ea : Word) (v : Byte) :
    Alike hidden (memWrite ea v s) (memWrite ea v u) := by
  obtain ⟨q, c, b, rfl, hp⟩ := h
  rw [memWrite_eq_rawWrite, memWrite_eq_rawWrite]
  exact ⟨q, c, b, rfl, hp⟩

theorem Alike.setSp (h : Alike hidden s u) (n : Byte) : Alike hidden { s with sp := n } { u with sp := n } := by
  obtain ⟨q, c, b, rfl, hp⟩ := h
  exact ⟨q, c, b, rfl, hp⟩

theorem Alike.setPc (h : Alike hidden s u) (n : Word) : Alike hidden { s with pc := n } { u with pc := n } := by
  obtain ⟨q, c, b, rfl, hp⟩ := h
  exact ⟨q, c, b, rfl, hp⟩

theorem Alike.setCycles (h : Alike hidden s u) (n : Nat) :
    Alike hidden { s with cycles := n } { u with cycles := n } := by
  obtain ⟨q, c, b, rfl, hp⟩ := h
  exact ⟨q, c, b, rfl, hp⟩

theorem Alike.push (h : Alike hidden s u) (v : Byte) : Alike hidden (push v s) (push v u) := by
  rw [Machine.push, Machine.push, h.sp_eq]
  exact (h.memWrite _ v).setSp _

theorem Alike.pop (h : Alike hidden s u) : ReadAlike hidden (pop s) (pop u) := by
  rw [Machine.pop, Machine.pop, h.sp_eq]
  exact (h.setSp _).memRead _

theorem Alike.absXAddr_eq (h : Alike hidden s u) (base : Word) : absXAddr base u = absXAddr base s := by
  obtain ⟨q, c, b, rfl, -⟩ := h
  rfl

theorem Alike.absXPenalty (h : Alike hidden s u) (op : Byte) (base : Word) :
    Alike hidden (absXPenalty op base s) (absXPenalty op base u) := by
  rw [Machine.absXPenalty, Machine.absXPenalty, h.cfg_eq, h.absXAddr_eq, h.cycles_eq]
  obtain ⟨q, c, b, rfl, hp⟩ := h
  split <;> exact ⟨q, c, b, rfl, hp⟩

theorem Alike.readImm (h : Alike hidden s u) (v : Byte) : ReadAlike hidden (v, s) (v, u) := by
  obtain ⟨q, c, b, rfl, hp⟩ := h
  exact ⟨q, c, b, rfl, hp⟩

theorem Alike.readZp (h : Alike hidden s u) (z : Byte) : ReadAlike hidden (readZp z s) (readZp z u) := h.memRead _

theorem Alike.readAbs (h : Alike hidden s u) (a : Word) : ReadAlike hidden (readAbs a s) (readAbs a u) := h.memRead a

theorem Alike.readAbsX (h : Alike hidden s u) (op : Byte) (base : Word) :
    ReadAlike hidden (readAbsX op base s) (readAbsX op base u) := by
  rw [Machine.readAbsX, Machine.readAbsX, h.absXAddr_eq]
  exact (h.absXPenalty op base).memRead _

theorem Alike.writeZp (h : Alike hidden s u) (z v : Byte) : Alike hidden (writeZp z v s) (writeZp z v u) :=
  h.memWrite _ v

theorem Alike.writeAbs (h : Alike hidden s u) (a : Word) (v : Byte) :
    Alike hidden (writeAbs a v s) (writeAbs a v u) := h.memWrite a v

theorem Alike.writeAbsX (h : Alike hidden s u) (op : Byte) (base : Word) (v : Byte) :
    Alike hidden (writeAbsX op base v s) (writeAbsX op base v u) := by
  rw [Machine.writeAbsX, Machine.writeAbsX, h.absXAddr_eq]
  exact (h.absXPenalty op base).memWrite _ v

theorem Alike.branch (h : Alike hidden s u) (cond : Bool) (d : Byte) :
    Alike hidden (branch cond d s) (branch cond d u) := by
  obtain ⟨q, c, b, rfl, hp⟩ := h
  cases cond <;> exact ⟨q, c, b, rfl, hp⟩

theorem Alike.branchIf (h : Alike hidden s u) {f : Flag} (hf : f.bit ∉ hidden) (d : Byte) :
    Alike hidden (Machine.branch (getFlag f s.p) d s) (Machine.branch (getFlag f u.p) d u) := by
  have hb := h.branch (getFlag f s.p) d
  obtain ⟨q, c, b, rfl, hp⟩ := h
  rwa [hp.getFlag hf]

theorem Alike.branchIfNot (h : Alike hidden s u) {f : Flag} (hf : f.bit ∉ hidden) (d : Byte) :
    Alike hidden (Machine.branch (!getFlag f s.p) d s) (Machine.branch (!getFlag f u.p) d u) := by
  have hb := h.branch (!getFlag f s.p) d
  obtain ⟨q, c, b, rfl, hp⟩ := h
  rwa [hp.getFlag hf]

section Modify

variable {f : Byte → Byte → Byte × Byte}

theorem Alike.modifyAt (h : Alike hidden s u) (hf : BlindTo hidden f) (ea : Word) :
    Alike hidden (modifyAt f ea s) (modifyAt f ea u) := by
  obtain ⟨q, c, b, hr, hp⟩ := h.memRead ea
  obtain ⟨hv, hq⟩ := hf (Machine.memRead ea s).1 _ _ hp
  rw [Machine.modifyAt, Machine.modifyAt, hr, hv]
  exact Alike.memWrite ⟨_, c, b, rfl, hq⟩ ea _

theorem Alike.modifyZp (h : Alike hidden s u) (hf : BlindTo hidden f) (z : Byte) :
    Alike hidden (modifyZp f z s) (modifyZp f z u) := h.modifyAt hf _

theorem Alike.modifyAbs (h : Alike hidden s u) (hf : BlindTo hidden f) (a : Word) :
    Alike hidden (modifyAbs f a s) (modifyAbs f a u) := h.modifyAt hf a

theorem Alike.modifyAbsX (h : Alike hidden s u) (hf : BlindTo hidden f) (op : Byte) (base : Word) :
    Alike hidden (modifyAbsX op f base s) (modifyAbsX op f base u) := by
  rw [Machine.modifyAbsX, Machine.modifyAbsX, h.absXAddr_eq]
  exact (h.absXPenalty op base).modifyAt hf _

theorem Alike.modifyA (h : Alike hidden s u) (hf : BlindTo hidden f) : Alike hidden (modifyA f s) (modifyA f u) := by
  obtain ⟨q, c, b, rfl, hp⟩ := h
  obtain ⟨hv, hq⟩ := hf s.a _ _ hp
  rw [Machine.modifyA, Machine.modifyA, hv]
  exact ⟨_, c, b, rfl, hq⟩

end Modify

/-! ### The effects on a byte that was read -/

theorem ReadAlike.loadA (h : ReadAlike hidden r r') : Alike hidden (loadA r) (loadA r') := by
  obtain ⟨q, c, b, rfl, hp⟩ := h
  exact ⟨_, c, b, rfl, hp.setZN _⟩

theorem ReadAlike.loadX (h : ReadAlike hidden r r') : Alike hidden (loadX r) (loadX r') := by
  obtain ⟨q, c, b, rfl, hp⟩ := h
  exact ⟨_, c, b, rfl, hp.setZN _⟩

theorem ReadAlike.loadY (h : ReadAlike hidden r r') : Alike hidden (loadY r) (loadY r') := by
  obtain ⟨q, c, b, rfl, hp⟩ := h
  exact ⟨_, c, b, rfl, hp.setZN _⟩

theorem ReadAlike.compareA (h : ReadAlike hidden r r') : Alike hidden (compareA r) (compareA r') := by
  obtain ⟨q, c, b, rfl, hp⟩ := h
  exact ⟨_, c, b, rfl, hp.compareFlags _ _⟩

theorem ReadAlike.compareX (h : ReadAlike hidden r r') : Alike hidden (compareX r) (compareX r') := by
  obtain ⟨q, c, b, rfl, hp⟩ := h
  exact ⟨_, c, b, rfl, hp.compareFlags _ _⟩

theorem ReadAlike.compareY (h : ReadAlike hidden r r') : Alike hidden (compareY r) (compareY r') := by
  obtain ⟨q, c, b, rfl, hp⟩ := h
  exact ⟨_, c, b, rfl, hp.compareFlags _ _⟩

theorem ReadAlike.bitTestA (h : ReadAlike hidden r r') : Alike hidden (bitTestA r) (bitTestA r') := by
  obtain ⟨q, c, b, rfl, hp⟩ := h
  exact ⟨_, c, b, rfl, hp.bitTestFlags _ _⟩

theorem ReadAlike.andA (h : ReadAlike hidden r r') : Alike hidden (andA r) (andA r') := by
  obtain ⟨q, c, b, rfl, hp⟩ := h
  exact ⟨_, c, b, rfl, hp.setZN _⟩

theorem ReadAlike.orA (h : ReadAlike hidden r r') : Alike hidden (orA r) (orA r') := by
  obtain ⟨q, c, b, rfl, hp⟩ := h
  exact ⟨_, c, b, rfl, hp.setZN _⟩

theorem ReadAlike.xorA (h : ReadAlike hidden r r') : Alike hidden (xorA r) (xorA r') := by
  obtain ⟨q, c, b, rfl, hp⟩ := h
  exact ⟨_, c, b, rfl, hp.setZN _⟩

theorem ReadAlike.addA (h : ReadAlike hidden r r') (hc : 0 ∉ hidden) : Alike hidden (addA r) (addA r') := by
  obtain ⟨q, c, b, rfl, hp⟩ := h
  obtain ⟨hv, hq⟩ := blindTo_addWithCarry hc r.2.a r.1 _ _ hp
  rw [Machine.addA, Machine.addA, hv]
  exact ⟨_, c, b, rfl, hq⟩

theorem ReadAlike.subtractA (h : ReadAlike hidden r r') (hc : 0 ∉ hidden) :
    Alike hidden (subtractA r) (subtractA r') := by
  obtain ⟨q, c, b, rfl, hp⟩ := h
  exact ReadAlike.addA ⟨q, c, b, rfl, hp⟩ hc

end Operations

/-! ## Instructions -/

/-- I and D are the flags at bits 2 and 3 (R26). -/
theorem Flag.eq_i_or_d_of_bit_mem (f : Flag) (h : f.bit ∈ [2, 3]) : f = .i ∨ f = .d := by
  revert h
  cases f <;> decide

/-- An instruction takes states that are alike to states that are alike, if no bit but those of I and D is hidden.
PHP stores P itself, so for it no bit may be hidden. -/
theorem exec_alike {hidden : List Nat} {i : Instr} {s u : State} (hh : hidden ⊆ [2, 3])
    (hphp : i = .php → hidden = []) (h : Alike hidden s u) :
    ∃ t v, exec i s = .next t ∧ exec i u = .next v ∧ Alike hidden t v := by
  have hvisible : ∀ f : Flag, f ≠ .i → f ≠ .d → f.bit ∉ hidden :=
    fun f hi hd hf => (Flag.eq_i_or_d_of_bit_mem f (hh hf)).elim hi hd
  have hc : 0 ∉ hidden := hvisible .c nofun nofun
  obtain ⟨q, c, b, rfl, hp⟩ := id h
  cases i <;> refine ⟨_, _, rfl, rfl, ?_⟩
  case ldaImm => exact (h.readImm _).loadA
  case ldaZp => exact (h.readZp _).loadA
  case ldaAbs => exact (h.readAbs _).loadA
  case ldaAbsX => exact (h.readAbsX _ _).loadA
  case ldxImm => exact (h.readImm _).loadX
  case ldxZp => exact (h.readZp _).loadX
  case ldxAbs => exact (h.readAbs _).loadX
  case ldyImm => exact (h.readImm _).loadY
  case ldyZp => exact (h.readZp _).loadY
  case ldyAbs => exact (h.readAbs _).loadY
  case ldyAbsX => exact (h.readAbsX _ _).loadY
  case adcImm => exact (h.readImm _).addA hc
  case adcZp => exact (h.readZp _).addA hc
  case adcAbs => exact (h.readAbs _).addA hc
  case adcAbsX => exact (h.readAbsX _ _).addA hc
  case sbcImm => exact (h.readImm _).subtractA hc
  case sbcZp => exact (h.readZp _).subtractA hc
  case sbcAbs => exact (h.readAbs _).subtractA hc
  case sbcAbsX => exact (h.readAbsX _ _).subtractA hc
  case cmpImm => exact (h.readImm _).compareA
  case cmpZp => exact (h.readZp _).compareA
  case cmpAbs => exact (h.readAbs _).compareA
  case cmpAbsX => exact (h.readAbsX _ _).compareA
  case cpxImm => exact (h.readImm _).compareX
  case cpxZp => exact (h.readZp _).compareX
  case cpxAbs => exact (h.readAbs _).compareX
  case cpyImm => exact (h.readImm _).compareY
  case cpyZp => exact (h.readZp _).compareY
  case cpyAbs => exact (h.readAbs _).compareY
  case bitZp => exact (h.readZp _).bitTestA
  case bitAbs => exact (h.readAbs _).bitTestA
  case andImm => exact (h.readImm _).andA
  case andZp => exact (h.readZp _).andA
  case andAbs => exact (h.readAbs _).andA
  case andAbsX => exact (h.readAbsX _ _).andA
  case oraImm => exact (h.readImm _).orA
  case oraZp => exact (h.readZp _).orA
  case oraAbs => exact (h.readAbs _).orA
  case oraAbsX => exact (h.readAbsX _ _).orA
  case eorImm => exact (h.readImm _).xorA
  case eorZp => exact (h.readZp _).xorA
  case eorAbs => exact (h.readAbs _).xorA
  case eorAbsX => exact (h.readAbsX _ _).xorA
  case staZp | stxZp | styZp => exact h.writeZp _ _
  case staAbs | stxAbs | styAbs => exact h.writeAbs _ _
  case staAbsX => exact h.writeAbsX _ _ _
  case aslAcc => exact h.modifyA blindTo_aslOp
  case aslZp => exact h.modifyZp blindTo_aslOp _
  case aslAbs => exact h.modifyAbs blindTo_aslOp _
  case aslAbsX => exact h.modifyAbsX blindTo_aslOp _ _
  case lsrAcc => exact h.modifyA blindTo_lsrOp
  case lsrZp => exact h.modifyZp blindTo_lsrOp _
  case lsrAbs => exact h.modifyAbs blindTo_lsrOp _
  case lsrAbsX => exact h.modifyAbsX blindTo_lsrOp _ _
  case rolAcc => exact h.modifyA (blindTo_rolOp hc)
  case rolZp => exact h.modifyZp (blindTo_rolOp hc) _
  case rolAbs => exact h.modifyAbs (blindTo_rolOp hc) _
  case rolAbsX => exact h.modifyAbsX (blindTo_rolOp hc) _ _
  case rorAcc => exact h.modifyA (blindTo_rorOp hc)
  case rorZp => exact h.modifyZp (blindTo_rorOp hc) _
  case rorAbs => exact h.modifyAbs (blindTo_rorOp hc) _
  case rorAbsX => exact h.modifyAbsX (blindTo_rorOp hc) _ _
  case incZp => exact h.modifyZp blindTo_incOp _
  case incAbs => exact h.modifyAbs blindTo_incOp _
  case incAbsX => exact h.modifyAbsX blindTo_incOp _ _
  case decZp => exact h.modifyZp blindTo_decOp _
  case decAbs => exact h.modifyAbs blindTo_decOp _
  case decAbsX => exact h.modifyAbsX blindTo_decOp _ _
  case inx | iny | dex | dey | tax | txa | tay | tya | tsx => exact ⟨_, c, b, rfl, hp.setZN _⟩
  case txs => exact h.setSp _
  case pha => exact h.push _
  case pla =>
    obtain ⟨q', c', b', hr, hp'⟩ := h.pop
    rw [hr]
    exact ⟨_, c', b', rfl, hp'.setZN _⟩
  case php =>
    obtain rfl := hphp rfl
    obtain rfl := hp.eq
    exact h.push _
  case plp =>
    obtain ⟨q', c', b', hr, -⟩ := h.pop
    rw [hr]
    exact ⟨_, c', b', rfl, fun _ _ => rfl⟩
  case bpl | bvc | bcc | bne => exact h.branchIfNot (hvisible _ (by decide) (by decide)) _
  case bmi | bvs | bcs | beq => exact h.branchIf (hvisible _ (by decide) (by decide)) _
  case jmp => exact h.setPc _
  case jsr => exact ((h.push _).push _).setPc _
  case rts =>
    rw [h.pop.byte_eq, h.pop.alike.pop.byte_eq]
    exact h.pop.alike.pop.alike.setPc _
  case clc | sec | cli | sei | clv | cld | sed => exact ⟨_, c, b, rfl, hp.putFlag _ _⟩
  case nop => exact h

/-! ## Fetching and the CPU step -/

/-- The two front halves of a CPU step gave the same instruction, or the same unsupported opcode, in states that
agree. -/
inductive FetchedAlike (hidden : List Nat) : Fetched → Fetched → Prop
  | instr (i : Instr) {s u : State} (h : Alike hidden s u) : FetchedAlike hidden (.instr i s) (.instr i u)
  | unsupported (op : Byte) {s u : State} (h : Alike hidden s u) :
    FetchedAlike hidden (.unsupported op s) (.unsupported op u)

theorem FetchedAlike.of_instr {hidden : List Nat} {i : Instr} {s : State} {g : Fetched}
    (h : FetchedAlike hidden (.instr i s) g) : ∃ u, g = .instr i u ∧ Alike hidden s u := by
  cases h with
  | instr _ h => exact ⟨_, rfl, h⟩

theorem FetchedAlike.of_unsupported {hidden : List Nat} {op : Byte} {s : State} {g : Fetched}
    (h : FetchedAlike hidden (.unsupported op s) g) : ∃ u, g = .unsupported op u ∧ Alike hidden s u := by
  cases h with
  | unsupported _ h => exact ⟨_, rfl, h⟩

theorem cpuStep_of_instr {s u : State} {i : Instr} (hn : s.halted = none) (hf : fetchInstr s = .instr i u) :
    cpuStep s = exec i u := by
  simp only [cpuStep, hn, hf]

theorem cpuStep_of_unsupported {s u : State} {op : Byte} (hn : s.halted = none)
    (hf : fetchInstr s = .unsupported op u) : cpuStep s = .next (takeUnsupported op u) := by
  simp only [cpuStep, hn, hf]

section Fetching

variable {hidden : List Nat} {s u : State}

theorem Alike.fetch8 (h : Alike hidden s u) : ReadAlike hidden (fetch8 s) (fetch8 u) := by
  obtain ⟨q, c, b, hr, hp⟩ := h.memRead s.pc
  rw [Machine.fetch8, Machine.fetch8, h.pc_eq, hr]
  exact ⟨q, c, b, rfl, hp⟩

theorem Alike.fetchBytes (n : Nat) (h : Alike hidden s u) :
    (fetchBytes n u).1 = (fetchBytes n s).1 ∧ Alike hidden (fetchBytes n s).2 (fetchBytes n u).2 := by
  induction n generalizing s u with
  | zero => exact ⟨rfl, h⟩
  | succ n ih =>
    obtain ⟨hbytes, hstate⟩ := ih h.fetch8.alike
    exact ⟨congrArg₂ List.cons h.fetch8.byte_eq hbytes, hstate⟩

theorem Alike.fetchInstr (h : Alike hidden s u) : FetchedAlike hidden (fetchInstr s) (fetchInstr u) := by
  have hop := h.fetch8.alike
  obtain ⟨hbytes, hstate⟩ := hop.fetchBytes (operandCount (Machine.fetch8 s).1)
  unfold Machine.fetchInstr fetchOperands
  rw [h.cfg_eq, h.fetch8.byte_eq, hbytes]
  split
  · split
    · exact .instr _ (hstate.setCycles _)
    · exact .unsupported _ hop
  · exact .unsupported _ hop

theorem Alike.takeUnsupported (h : Alike [] s u) (op : Byte) :
    Alike [] (takeUnsupported op s) (takeUnsupported op u) := by
  obtain ⟨q, c, b, rfl, hp⟩ := h
  obtain rfl := hp.eq
  exact ⟨s.p, c, b, rfl, hp⟩

/-- CPU steps from two states that differ in the timing engine alone. -/
theorem Alike.cpuStep {t : State} (h : Alike [] s u) (ht : cpuStep s = .next t) :
    ∃ v, cpuStep u = .next v ∧ Alike [] t v := by
  have hfetch := h.fetchInstr
  obtain ⟨hn, hcases⟩ := cpuStep_cases ht
  rw [← h.halted_eq] at hn
  obtain ⟨i, s₁, hf, hexec⟩ | ⟨op, s₁, hf, rfl⟩ := hcases
  · rw [hf] at hfetch
    obtain ⟨u₁, hg, h₁⟩ := hfetch.of_instr
    obtain ⟨t', v, ht', hv, htv⟩ := exec_alike (List.nil_subset _) (fun _ => rfl) h₁
    obtain rfl := Host.Outcome.next.inj (hexec.symm.trans ht')
    exact ⟨v, (cpuStep_of_instr hn hg).trans hv, htv⟩
  · rw [hf] at hfetch
    obtain ⟨u₁, hg, h₁⟩ := hfetch.of_unsupported
    exact ⟨_, cpuStep_of_unsupported hn hg, h₁.takeUnsupported op⟩

end Fetching

end Sys2Proof.Machine
end

section
/-! PROOFS. The machine invariant is kept by every part of a step, and the canonical form of memory determines what
the memory reads as and is determined by it. -/

namespace Sys2Proof.Machine

/-! ## The canonical form determines the list -/

/-- In canonical form no address below the first entry's reads as a listed byte. -/
theorem Memory.head_le_of_read {lo b : Nat} {c : Host.Cell} {m : Memory} (hm : Memory.wfFrom lo (c :: m) = true)
    (hb : Memory.read (c :: m) b ≠ Memory.unlisted) : c.1 ≤ b := by
  obtain ⟨-, hc, hv, htail⟩ := Memory.wfFrom_cons.1 hm
  by_contra hlt
  exact hb (Memory.read_of_wfFrom_lt (Memory.wfFrom_cons.2 ⟨le_refl c.1, hc, hv, htail⟩) (by omega))

theorem Memory.read_head (c : Host.Cell) (m : Memory) : Memory.read (c :: m) c.1 = c.2 := if_pos rfl

/-- Canonical lists that read alike at every address of the machine are equal. -/
theorem Memory.eq_of_read_eq {lo lo' : Nat} {m n : Memory} (hm : Memory.wfFrom lo m = true)
    (hn : Memory.wfFrom lo' n = true) (h : ∀ b, b < 65536 → m.read b = n.read b) : m = n := by
  induction m generalizing lo lo' n with
  | nil =>
    cases n with
    | nil => rfl
    | cons d n =>
      obtain ⟨-, hd, hdv, -⟩ := Memory.wfFrom_cons.1 hn
      exact absurd ((Memory.read_head d n).symm.trans (h d.1 hd).symm) hdv
  | cons c m ih =>
    obtain ⟨-, hc, hcv, hmtail⟩ := Memory.wfFrom_cons.1 hm
    have hcread : Memory.read n c.1 = c.2 := (h c.1 hc).symm.trans (Memory.read_head c m)
    cases n with
    | nil => exact absurd hcread.symm hcv
    | cons d n =>
      obtain ⟨-, hd, hdv, hntail⟩ := Memory.wfFrom_cons.1 hn
      have hdread : Memory.read (c :: m) d.1 = d.2 := (h d.1 hd).trans (Memory.read_head d n)
      have hdc : d.1 ≤ c.1 := Memory.head_le_of_read hn (by rwa [hcread])
      have hcd : c.1 ≤ d.1 := Memory.head_le_of_read hm (by rwa [hdread])
      have haddr : c.1 = d.1 := le_antisymm hcd hdc
      have hbyte : c.2 = d.2 := by rw [← hcread, haddr, Memory.read_head]
      obtain rfl : c = d := Prod.ext haddr hbyte
      refine congrArg (c :: ·) (ih hmtail hntail fun b hb => ?_)
      by_cases hcb : c.1 = b
      · rw [Memory.read_of_wfFrom_lt hmtail (by omega), Memory.read_of_wfFrom_lt hntail (by omega)]
      · simpa [Memory.read_cons, hcb] using h b hb

/-! ## Every instruction keeps the canonical form -/

/-- Every instruction reaches memory through accesses that keep it canonical. -/
theorem exec_wf {i : Instr} {s t : State} (hm : s.mem.wf = true) (h : exec i s = .next t) : t.mem.wf = true := by
  cases i <;> cases h <;>
    simp [hm, readZp, readAbs, readAbsX, writeZp, writeAbs, writeAbsX, modifyZp, modifyAbs, modifyAbsX,
      memRead_wf, memWrite_wf, modifyAt_wf, push_wf, pop_wf]

/-! ## What a CPU step leaves unchanged -/

/-- An opcode without a handler is answered in the state after its fetch. -/
theorem fetchInstr_unsupported {s u : State} {op : Byte} (h : fetchInstr s = .unsupported op u) :
    u = (fetch8 s).2 := by
  obtain ⟨_, _, _, -, -, e⟩ | ⟨-, e⟩ := fetchInstr_cases s <;> rw [h] at e <;> cases e
  rfl

theorem fetchInstr_wf {s u : State} {i : Instr} (hm : s.mem.wf = true) (h : fetchInstr s = .instr i u) :
    u.mem.wf = true := by
  obtain ⟨_, _, _, -, -, e⟩ | ⟨-, e⟩ := fetchInstr_cases s <;> rw [h] at e <;> cases e
  exact fetchBytes_wf _ (fetch8_wf hm)

/-- A CPU step touches neither the timing engine (R38) nor the registry (R36) nor the parameters. -/
theorem cpuStep_frame {s t : State} (h : cpuStep s = .next t) :
    t.counter = s.counter ∧ t.vblank = s.vblank ∧ t.registry = s.registry ∧ t.cfg = s.cfg := by
  obtain ⟨-, ⟨i, u, hf, hexec⟩ | ⟨op, u, hf, rfl⟩⟩ := cpuStep_cases h
  · obtain ⟨hcounter, hvblank, -, hregistry, hcfg⟩ := exec_frame hexec
    rw [hcounter, hvblank, hregistry, hcfg, fetchInstr_frame hf]
    exact ⟨rfl, rfl, rfl, rfl⟩
  · rw [fetchInstr_unsupported hf]
    simp

theorem cpuStep_of_halted {s : State} {h : Halt} (hs : s.halted = some h) :
    cpuStep s = .fault (.alreadyHalted h) := by simp only [cpuStep, hs]

/-! ## The parts of a step keep the invariant -/

/-- The invariant rests on memory, bits 4 and 5 of P, the registry and the parameters alone. -/
theorem State.Inv.of_frame {s t : State} (hs : s.Inv) (hmem : t.mem.wf = true)
    (hp : t.p.getLsbD 4 = false ∧ t.p.getLsbD 5 = true) (hregistry : t.registry = s.registry)
    (hcfg : t.cfg = s.cfg) : t.Inv where
  memory := hmem
  bit5 := hp.2
  bit4 := hp.1
  registry := by rw [hregistry, hcfg, hs.registry]
  cfg := by rw [hcfg, hs.cfg]

theorem exec_inv {i : Instr} {s t : State} (hs : s.Inv) (h : exec i s = .next t) : t.Inv := by
  obtain ⟨-, -, -, hregistry, hcfg⟩ := exec_frame h
  refine hs.of_frame (exec_wf hs.memory h) ?_ hregistry hcfg
  by_cases hi : i = .plp
  · subst hi
    exact exec_plp_bits45 h
  · obtain ⟨h4, h5⟩ := exec_bits45_of_ne_plp h hi
    exact ⟨h4.trans hs.bit4, h5.trans hs.bit5⟩

theorem fetchInstr_inv {i : Instr} {s u : State} (hs : s.Inv) (h : fetchInstr s = .instr i u) : u.Inv := by
  have hmem := fetchInstr_wf hs.memory h
  have hframe := fetchInstr_frame h
  refine hs.of_frame hmem ?_ ?_ ?_ <;> rw [hframe]
  exact ⟨hs.bit4, hs.bit5⟩

theorem cpuStep_inv {s t : State} (hs : s.Inv) (h : cpuStep s = .next t) : t.Inv := by
  obtain ⟨-, ⟨i, u, hf, hexec⟩ | ⟨op, u, hf, rfl⟩⟩ := cpuStep_cases h
  · exact exec_inv (fetchInstr_inv hs hf) hexec
  · obtain rfl := fetchInstr_unsupported hf
    exact hs.of_frame (fetch8_wf hs.memory) (by simpa using ⟨hs.bit4, hs.bit5⟩) (by simp) (by simp)

theorem runTiming_inv {s : State} (hs : s.Inv) : (runTiming s).Inv :=
  hs.of_frame (runTiming_wf hs.memory) (by simpa using ⟨hs.bit4, hs.bit5⟩) (by simp) (by simp)

/-! ## Where the invariant starts -/

theorem construct_p (cfg : Config) (m : Memory) : (construct cfg m).p = 0x20 := rfl

/-- R40, R242: the status byte 0x20, the one observer, and what the parameters and the memory give. -/
theorem construct_inv {cfg : Config} {m : Memory} (hcfg : cfg.wf = true) (hm : m.wf = true) :
    (construct cfg m).Inv where
  memory := hm
  bit5 := by rw [construct_p]; decide
  bit4 := by rw [construct_p]; decide
  registry := rfl
  cfg := hcfg

theorem reset_eq_construct : State.reset = construct defaultConfig [] := rfl

theorem defaultConfig_wf : defaultConfig.wf = true := by decide +kernel

end Sys2Proof.Machine
end

section
/-! PROOFS. The statements about the state (spec/10_state.md). -/

namespace Sys2Proof.Proofs

open Sys2Proof Sys2Proof.Machine Sys2Proof.Statements

/-- Settles O21: the CPU step keeps the invariant, because its fetch and every instruction do; then the timing steps
keep it. -/
theorem stepKeepsTheMachineInvariant : Obligations.StepKeepsTheMachineInvariant := by
  intro s t hs h
  obtain ⟨u, hu, rfl⟩ := step_cases h
  exact runTiming_inv (cpuStep_inv hs hu)

/-- Settles O9, by induction on the first list: the heads of the two lists are the lowest address with a byte that
an unlisted address does not read as, so they are equal. -/
theorem canonicalMemoriesWithEqualReadsAreEqual : Obligations.CanonicalMemoriesWithEqualReadsAreEqual := by
  intro m n hm hn h
  refine Memory.eq_of_read_eq hm hn fun b hb => ?_
  have hread := h (BitVec.ofNat 16 b)
  rwa [BitVec.toNat_ofNat, Nat.mod_eq_of_lt hb] at hread

/-- Settles O23: neither the CPU step nor the timing steps write the registry or the parameters. -/
theorem stepChangesNeitherRegistryNorParameters : Obligations.StepChangesNeitherRegistryNorParameters := by
  intro s t h
  obtain ⟨u, hu, rfl⟩ := step_cases h
  obtain ⟨-, -, hregistry, hcfg⟩ := cpuStep_frame hu
  exact ⟨(runTiming_registry u).trans hregistry, (runTiming_cfg u).trans hcfg⟩

/-- Settles O24, one register at a time. -/
theorem registersChangeOnlyByTheirWriters : Obligations.RegistersChangeOnlyByTheirWriters := fun _ _ _ h =>
  ⟨exec_a_of_not_writesA h, exec_x_of_not_writesX h, exec_y_of_not_writesY h, exec_sp_of_not_writesSP h,
    exec_frame h⟩

/-- Settles O25, one flag at a time. -/
theorem flagsChangeOnlyByTheirWriters : Obligations.FlagsChangeOnlyByTheirWriters := fun _ _ _ h =>
  ⟨exec_c_of_not_writesC h, exec_zn_of_yieldsNoResult h, exec_i_of_not_writesI h, exec_d_of_not_writesD h,
    exec_v_of_not_writesV h, exec_bits45_of_ne_plp h, fun hi => exec_plp_bits45 (hi ▸ h)⟩

/-- Settles O27: the two states are alike with bits 2 and 3 of P hidden, so the instruction takes them to states that
are; and it writes nothing of the timing engine, where alike states may differ too. -/
theorem interruptAndDecimalFlagsAreInert : Obligations.InterruptAndDecimalFlagsAreInert := by
  intro i s q hi hq
  have hs : Alike [2, 3] s { s with p := q } :=
    ⟨q, s.counter, s.vblank, rfl, fun k hk => hq k (by rintro rfl; simp at hk) (by rintro rfl; simp at hk)⟩
  obtain ⟨t, u, ht, hu, q', c, b, rfl, hp⟩ := exec_alike (i := i) (List.Subset.refl _) (absurd · hi) hs
  obtain ⟨htc, htb, -⟩ := exec_frame ht
  obtain ⟨huc, hub, -⟩ := exec_frame hu
  obtain rfl : c = t.counter := huc.trans htc.symm
  obtain rfl : b = t.vblank := hub.trans htb.symm
  exact ⟨t, _, ht, hu, rfl, fun k h2 h3 => hp k (by simp [h2, h3])⟩

/-- Settles O28: the two states are alike with nothing of P hidden, so the CPU step takes them to states that differ
in the timing engine alone; and a CPU step does not write that. -/
theorem cpuStepNeverReadsTheTimingState : Obligations.CpuStepNeverReadsTheTimingState := by
  intro s t c b h
  have hs : Alike [] s { s with counter := c, vblank := b } := ⟨s.p, c, b, rfl, fun _ _ => rfl⟩
  obtain ⟨v, hv, q, c', b', rfl, hp⟩ := hs.cpuStep h
  obtain ⟨hc, hb, -, -⟩ := cpuStep_frame hv
  obtain rfl : c' = c := hc
  obtain rfl : b' = b := hb
  obtain rfl := hp.eq
  exact hv

/-- Settles O2: both sides of each equation are the same written-out state. -/
theorem resetStateIsTheConstructionOverEmptyMemory : Obligations.ResetStateIsTheConstructionOverEmptyMemory :=
  ⟨rfl, rfl, rfl, rfl, rfl, fun b => Memory.read_nil b.toNat, reset_eq_construct⟩

/-- Settles O14: the CPU step answers the fault, and `step` passes it on. -/
theorem haltedMachineRunsNoStep : Obligations.HaltedMachineRunsNoStep := fun s h hs => by
  simp only [step, cpuStep_of_halted hs]

/-- Settles O22: reset is a construction with allowed parameters. -/
theorem resetSatisfiesTheMachineInvariant : Obligations.ResetSatisfiesTheMachineInvariant :=
  ⟨reset_eq_construct ▸ construct_inv defaultConfig_wf rfl, fun _ _ => construct_inv⟩

end Sys2Proof.Proofs
end

section
/-! PROOFS. The rules of the bus (spec/20_memory.md): what one public read leaves at every address, which addresses
reads spare, what a write leaves, the observer registry, and fetching where no observer is registered. -/

namespace Sys2Proof

/-- The status byte is neither latch (D15). -/
theorem Config.status_ne_latches {cfg : Config} (h : cfg.wf = true) :
    cfg.statusAddr ≠ cfg.latchA ∧ cfg.statusAddr ≠ cfg.latchB := by
  simp only [Config.wf, Config.addressesDistinct, Bool.and_eq_true, bne_iff_ne] at h
  obtain ⟨⟨⟨-, hlatches, -⟩, -⟩, -⟩ := h
  exact hlatches

end Sys2Proof

namespace Sys2Proof.Machine

open Sys2Proof.Statements

/-! ## A public read -/

theorem byteAfterRead_of_no_observer {s : State} {ea : Word} (h : observerAt ea s.registry = none) (b : Word) :
    byteAfterRead s ea b = rawRead b s := by
  simp [byteAfterRead, h]

/-- A public read leaves the fields other than memory, and memory as the observer of the address says (R51, R221). -/
theorem afterRead_memRead (s : State) (ea : Word) : AfterRead s ea (memRead ea s).2 := by
  cases h : observerAt ea s.registry with
  | none =>
    rw [memRead_of_no_observer h]
    exact ⟨rfl, fun b => (byteAfterRead_of_no_observer h b).symm⟩
  | some o =>
    cases o
    rw [memRead_of_status h]
    refine ⟨rfl, fun b => ?_⟩
    rw [byteAfterRead, if_pos h]
    exact read_act_read s.cfg s.mem b

theorem rawRead_memRead (s : State) (ea b : Word) : rawRead b (memRead ea s).2 = byteAfterRead s ea b :=
  (afterRead_memRead s ea).2 b

/-! ## The bytes that reads spare -/

/-- No public read changes the byte at `b`: it is none of the three that the status observer writes, or no observer
is registered. -/
def Spared (s : State) (b : Word) : Prop :=
  (b ≠ s.cfg.statusAddr ∧ b ≠ s.cfg.latchA ∧ b ≠ s.cfg.latchB) ∨ s.registry = []

section Spared

variable {s : State} {b : Word} (h : Spared s b)
include h

theorem Spared.of_frame {t : State} (hregistry : t.registry = s.registry) (hcfg : t.cfg = s.cfg) : Spared t b := by
  rwa [Spared, hregistry, hcfg]

theorem Spared.rawRead_memRead (ea : Word) : rawRead b (memRead ea s).2 = rawRead b s := by
  rw [Machine.rawRead_memRead]
  obtain ⟨hstatus, hlatchA, hlatchB⟩ | hnone := h
  · simp [byteAfterRead, hstatus, hlatchA, hlatchB]
  · exact byteAfterRead_of_no_observer (by rw [hnone]; rfl) b

theorem Spared.rawRead_readAbsX (op : Byte) (base : Word) : rawRead b (readAbsX op base s).2 = rawRead b s :=
  calc rawRead b (readAbsX op base s).2
    _ = rawRead b (absXPenalty op base s) := (h.of_frame (by simp) (by simp)).rawRead_memRead _
    _ = rawRead b s := rawRead_congr (by simp) b

theorem Spared.rawRead_pop : rawRead b (pop s).2 = rawRead b s :=
  Spared.rawRead_memRead (s := { s with sp := s.sp + 1 }) h _

end Spared

/-- An instruction that stores nothing (R119) reaches memory by public reads alone: one of its operand, or one for
each byte it pulls. -/
theorem exec_rawRead_of_not_storesToMemory {i : Instr} {s t : State} {b : Word} (h : exec i s = .next t)
    (hw : storesToMemory i = false) (hb : Spared s b) : rawRead b t = rawRead b s := by
  cases i <;> cases h <;> cases hw
  case ldaZp | ldxZp | ldyZp | adcZp | sbcZp | cmpZp | cpxZp | cpyZp | bitZp | andZp | oraZp | eorZp |
      ldaAbs | ldxAbs | ldyAbs | adcAbs | sbcAbs | cmpAbs | cpxAbs | cpyAbs | bitAbs | andAbs | oraAbs |
      eorAbs =>
    exact hb.rawRead_memRead _
  case ldaAbsX | ldyAbsX | adcAbsX | sbcAbsX | cmpAbsX | andAbsX | oraAbsX | eorAbsX =>
    exact hb.rawRead_readAbsX _ _
  case pla | plp => exact hb.rawRead_pop
  case rts =>
    have hpop : Spared (pop s).2 b := hb.of_frame (by simp) (by simp)
    exact hpop.rawRead_pop.trans hb.rawRead_pop
  case bpl | bmi | bvc | bvs | bcc | bcs | bne | beq => exact rawRead_congr (branch_mem _ _ s) b
  all_goals rfl

/-! ## A write -/

theorem storedAt_write (s : State) (ea : Word) (v : Byte) : StoredAt s ea v (s.mem.write ea.toNat v) :=
  fun b => rawRead_rawWrite ea b v s

theorem memWrite_eq (s : State) (ea : Word) (v : Byte) :
    memWrite ea v s = { s with mem := s.mem.write ea.toNat v } := memWrite_eq_rawWrite ea v s

/-! ## The registry -/

theorem observerAt_cons (e : Word × Observer) (es : List (Word × Observer)) (b : Word) :
    observerAt b (e :: es) = if e.1 = b then some e.2 else observerAt b es := rfl

/-- Taking the entries of one address away changes the observer of no other. -/
theorem observerAt_filter_ne {ea b : Word} (h : b ≠ ea) (es : List (Word × Observer)) :
    observerAt b (es.filter fun e => decide (e.1 ≠ ea)) = observerAt b es := by
  induction es with
  | nil => rfl
  | cons e es ih =>
    rw [observerAt_cons]
    by_cases he : e.1 = ea
    · have hb : e.1 ≠ b := fun hb => h (hb.symm.trans he)
      rw [List.filter_cons_of_neg (by simp [he]), ih, if_neg hb]
    · rw [List.filter_cons_of_pos (by simp [he]), observerAt_cons, ih]

/-! ## The bus under the invariant -/

theorem State.Inv.observerAt_eq {s : State} (h : s.Inv) (ea : Word) :
    observerAt ea s.registry = if s.cfg.statusAddr = ea then some .status else none := by
  rw [h.registry]
  rfl

/-- A read of the status byte clears its bit 7 (R221). -/
theorem State.Inv.rawRead_status_memRead {s : State} (h : s.Inv) :
    rawRead s.cfg.statusAddr (memRead s.cfg.statusAddr s).2 = rawRead s.cfg.statusAddr s &&& 0x7F := by
  obtain ⟨hA, hB⟩ := Config.status_ne_latches h.cfg
  rw [rawRead_memRead, byteAfterRead, h.observerAt_eq]
  simp [hA, hB]

/-! ## Fetching -/

/-- A fetch where no observer is registered changes PC alone (R101). -/
theorem fetch8_of_no_observer {s : State} (h : observerAt s.pc s.registry = none) :
    fetch8 s = (rawRead s.pc s, { s with pc := s.pc + 1 }) := by
  rw [fetch8, memRead_of_no_observer h, memRead_fst]

/-- Counting from the next address, modulo 0x10000. -/
theorem Word.ofNat_succ_add (w : Word) (k : Nat) :
    BitVec.ofNat 16 ((w + 1).toNat + k) = BitVec.ofNat 16 (w.toNat + (k + 1)) := by
  apply BitVec.eq_of_toNat_eq
  simp [Nat.add_assoc, Nat.add_comm k 1]

/-- The `n` addresses from PC on have no observer. -/
def Unobserved (n : Nat) (s : State) : Prop :=
  ∀ k, k < n → observerAt (BitVec.ofNat 16 (s.pc.toNat + k)) s.registry = none

theorem Unobserved.head {n : Nat} {s : State} (h : Unobserved (n + 1) s) : observerAt s.pc s.registry = none := by
  simpa using h 0 n.succ_pos

theorem Unobserved.tail {n : Nat} {s : State} (h : Unobserved (n + 1) s) :
    Unobserved n { s with pc := s.pc + 1 } := fun k hk => by
  simpa only [Word.ofNat_succ_add] using h (k + 1) (Nat.succ_lt_succ hk)

/-- The bytes at the `n` addresses from PC on, modulo 0x10000. -/
def bytesAtPc (n : Nat) (s : State) : List Byte :=
  (List.range n).map fun k => rawRead (BitVec.ofNat 16 (s.pc.toNat + k)) s

theorem bytesAtPc_succ (n : Nat) (s : State) :
    bytesAtPc (n + 1) s = rawRead s.pc s :: bytesAtPc n { s with pc := s.pc + 1 } := by
  simp only [bytesAtPc, List.range_succ_eq_map, List.map_cons, List.map_map, Word.ofNat_succ_add, Nat.add_zero,
    BitVec.ofNat_toNat, BitVec.setWidth_eq]
  rfl

theorem fetchBytes_of_unobserved {n : Nat} {s : State} (h : Unobserved n s) :
    fetchBytes n s = (bytesAtPc n s, { s with pc := BitVec.ofNat 16 (s.pc.toNat + n) }) := by
  induction n generalizing s with
  | zero => simp [bytesAtPc]
  | succ n ih =>
    rw [fetchBytes_succ, fetch8_of_no_observer h.head, ih h.tail, bytesAtPc_succ, Word.ofNat_succ_add]

end Sys2Proof.Machine
end

section
/-! PROOFS. The statements about memory and the bus (spec/20_memory.md). -/

namespace Sys2Proof.Proofs

open Sys2Proof Sys2Proof.Machine Sys2Proof.Statements

/-- Settles O11, by induction on the number of bytes: each fetch changes PC alone. -/
theorem fetchedBytesAreThoseAtPc : Obligations.FetchedBytesAreThoseAtPc := fun _ _ h => fetchBytes_of_unobserved h

/-- Settles O26: such an instruction reaches memory by public reads alone, and those spare the address. -/
theorem onlyStoringInstructionsWriteMemory : Obligations.OnlyStoringInstructionsWriteMemory :=
  fun _ _ _ _ hw h hb => exec_rawRead_of_not_storesToMemory h hw hb

/-- Settles O5. -/
theorem publicReadReturnsTheByteThenFires : Obligations.PublicReadReturnsTheByteThenFires :=
  fun s ea => ⟨memRead_fst ea s, afterRead_memRead s ea⟩

/-- Settles O6: a public write is the raw write, because the observer does nothing on a write. -/
theorem writesStoreTheByteAlone : Obligations.WritesStoreTheByteAlone := fun s ea v =>
  ⟨⟨_, storedAt_write s ea v, memWrite_eq s ea v⟩, ⟨_, storedAt_write s ea v, rfl⟩⟩

/-- Settles O7: the second status read finds what the observer of the first left; an address of the inert range is
none of the observer's three, so no observer stands there and no read changes the byte. -/
theorem writeThenReadReturnsTheByte : Obligations.WriteThenReadReturnsTheByte := by
  intro s ea v
  refine ⟨?_, fun hs => hs.rawRead_status_memRead, fun hs hlo hhi => ?_⟩
  · rw [memRead_fst, rawRead_memWrite, if_pos rfl]
  · have hinert : inInertRange ea = true := by simp [inInertRange, BitVec.le_def, hlo, hhi]
    have hne := Config.ne_of_inInertRange hs.cfg hinert
    have hnone : observerAt ea s.registry = none := by rw [hs.observerAt_eq, if_neg hne.1.symm]
    exact ⟨Prod.ext rfl (memRead_of_no_observer hnone), fun b => Spared.rawRead_memRead (.inl hne) b⟩

/-- Settles O8. -/
theorem registerObserverReplacesAtItsAddress : Obligations.RegisterObserverReplacesAtItsAddress := by
  intro es ea b o
  rw [registerObserver, observerAt_cons]
  by_cases h : b = ea
  · rw [if_pos h.symm, if_pos h]
  · rw [if_neg (Ne.symm h), if_neg h, observerAt_filter_ne h]

/-- Settles O37: the fetch reads the address the store wrote. -/
theorem storedByteIsTheNextOneFetched : Obligations.StoredByteIsTheNextOneFetched := by
  intro s t h
  rw [exec_staAbs] at h
  obtain rfl := Host.Outcome.next.inj h
  rw [fetch8_fst, writeAbs, memWrite_pc, rawRead_memWrite, if_pos rfl]

end Sys2Proof.Proofs
end

section
/-! PROOFS. The decoder and the encoder (spec/30_encoding.md R80 to R90). `Form.Makes` says which instruction a form
makes of which operand bytes. A form reads exactly what it makes; the row of an instruction's opcode makes it of its
operand bytes; and what a row makes is encoded as the row's opcode and those operand bytes. -/

namespace Sys2Proof

open Sys2Proof.Statements

/-! ## What a form makes of operand bytes -/

/-- The form makes the instruction of exactly these operand bytes, the low byte of a word first (R81, R83). -/
inductive Form.Makes : Form → Instr → List Byte → Prop
  | implied (i : Instr) : Makes (.implied i) i []
  | byteOperand (mk : Byte → Instr) (b : Byte) : Makes (.byteOperand mk) (mk b) [b]
  | wordOperand (mk : Word → Instr) (w : Word) : Makes (.wordOperand mk) (mk w) [lo8 w, hi8 w]

/-- A form reads exactly the instructions it makes, and leaves the bytes after their operands. -/
theorem Form.read_eq_ok_iff {f : Form} {op : Byte} {bs rest : List Byte} {i : Instr} :
    f.read op bs = .ok (i, rest) ↔ ∃ operands, f.Makes i operands ∧ bs = operands ++ rest := by
  constructor
  · intro h
    match f, bs with
    | .implied j, bs =>
      obtain ⟨rfl, rfl⟩ : j = i ∧ bs = rest := by simpa [Form.read] using h
      exact ⟨[], .implied j, rfl⟩
    | .byteOperand mk, b :: bs =>
      obtain ⟨rfl, rfl⟩ : mk b = i ∧ bs = rest := by simpa [Form.read] using h
      exact ⟨[b], .byteOperand mk b, rfl⟩
    | .wordOperand mk, l :: r :: bs =>
      obtain ⟨rfl, rfl⟩ : mk (wordOf l r) = i ∧ bs = rest := by simpa [Form.read] using h
      exact ⟨_, .wordOperand mk (wordOf l r), by simp⟩
    | .byteOperand _, [] | .wordOperand _, [] | .wordOperand _, [_] => cases h
  · rintro ⟨_, hmakes, rfl⟩
    cases hmakes <;> simp [Form.read]

/-- A form that finds its operand bytes and no more reads an instruction. -/
theorem Form.read_of_length {f : Form} {op : Byte} {bs : List Byte} (h : bs.length = f.operandCount) :
    ∃ i, f.read op bs = .ok (i, []) := by
  match f, bs with
  | .implied i, [] => exact ⟨i, rfl⟩
  | .byteOperand mk, [b] => exact ⟨mk b, rfl⟩
  | .wordOperand mk, [l, r] => exact ⟨mk (wordOf l r), rfl⟩

/-- The one reason a form rejects bytes is that operand bytes are missing. -/
theorem Form.read_ne_unsupported (f : Form) (op op' : Byte) (bs : List Byte) (why : Unsupported) :
    f.read op bs ≠ .error (.unsupported op' why) := by
  unfold Form.read
  split <;> simp

theorem Form.operandCount_le (f : Form) : f.operandCount ≤ 2 := by
  cases f <;> simp [Form.operandCount]

/-! ## The rows of the table -/

theorem operandCount_of_findRow {op : Byte} {r : Row} (h : findRow op referenceTable = some r) :
    operandCount op = r.form.operandCount := by
  simp only [operandCount, h]

theorem operandCount_le (op : Byte) : operandCount op ≤ 2 := by
  unfold operandCount
  split
  · exact Form.operandCount_le _
  · exact Nat.zero_le 2

theorem exists_findRow_iff {op : Byte} : (∃ r, findRow op referenceTable = some r) ↔ op ∈ referenceSet := by
  rw [← Option.isSome_iff_exists, findRow_isSome, referenceSet]

theorem findRow_eq_none_iff {op : Byte} : findRow op referenceTable = none ↔ op ∉ referenceSet := by
  rw [← exists_findRow_iff, ← Option.isSome_iff_exists, Option.not_isSome_iff_eq_none]

/-- The row of the instruction's opcode makes it of its operand bytes. -/
def MadeByItsRow (i : Instr) : Prop :=
  match findRow i.opcode referenceTable with
  | some r => r.form.Makes i i.operandBytes
  | none => False

/-- R88, read from the instructions, by the three formats of R81. -/
theorem madeByItsRow (i : Instr) : MadeByItsRow i := by
  cases i
  case aslAcc | lsrAcc | rolAcc | rorAcc | inx | iny | dex | dey | tax | txa | tay | tya | tsx | txs | pha | pla |
      php | plp | rts | clc | sec | cli | sei | clv | cld | sed | nop =>
    exact .implied _
  case ldaImm | ldxImm | ldyImm | adcImm | sbcImm | cmpImm | cpxImm | cpyImm | andImm | oraImm | eorImm |
      ldaZp | ldxZp | ldyZp | staZp | stxZp | styZp | adcZp | sbcZp | cmpZp | cpxZp | cpyZp | bitZp | andZp | oraZp |
      eorZp | aslZp | lsrZp | rolZp | rorZp | incZp | decZp | bpl | bmi | bvc | bvs | bcc | bcs | bne | beq =>
    exact .byteOperand _ _
  case ldaAbs | ldxAbs | ldyAbs | staAbs | stxAbs | styAbs | adcAbs | sbcAbs | cmpAbs | cpxAbs | cpyAbs | bitAbs |
      andAbs | oraAbs | eorAbs | aslAbs | lsrAbs | rolAbs | rorAbs | incAbs | decAbs | ldaAbsX | ldyAbsX | staAbsX |
      adcAbsX | sbcAbsX | cmpAbsX | andAbsX | oraAbsX | eorAbsX | aslAbsX | lsrAbsX | rolAbsX | rorAbsX | incAbsX |
      decAbsX | jmp | jsr =>
    exact .wordOperand _ _

theorem exists_row_makes (i : Instr) :
    ∃ r, findRow i.opcode referenceTable = some r ∧ r.form.Makes i i.operandBytes := by
  have h := madeByItsRow i
  unfold MadeByItsRow at h
  split at h
  · next r hr => exact ⟨r, hr, h⟩
  · exact h.elim

/-- R88, read from the rows: what a row makes is encoded as the row's opcode and the operand bytes. -/
theorem encode_of_row_makes :
    ∀ r ∈ referenceTable, ∀ (i : Instr) (operands : List Byte),
      r.form.Makes i operands → encode i = r.opcode :: operands := by
  simp only [referenceTable, rowsLow, rowsMidLow, rowsMidHigh, rowsHigh, List.forall_mem_append,
    List.forall_mem_cons, List.not_mem_nil, false_imp_iff, implies_true, and_true]
  and_intros <;> (rintro _ _ ⟨⟩; rfl)

/-! ## The decoder -/

theorem decode_of_findRow {op : Byte} {r : Row} (h : findRow op referenceTable = some r) (bs : List Byte) :
    decode (op :: bs) = r.form.read op bs := by
  simp only [decode, h]

theorem decode_of_not_mem {op : Byte} (h : op ∉ referenceSet) (bs : List Byte) :
    decode (op :: bs) = .error (.unsupported op (unsupportedReason op)) := by
  simp only [decode, findRow_eq_none_iff.2 h]

/-- Where the decoder answers, the opcode has a row and that row's form read the bytes after it. -/
theorem exists_row_of_decode {bytes rest : List Byte} {i : Instr} (h : decode bytes = .ok (i, rest)) :
    ∃ r ∈ referenceTable, ∃ bs, bytes = r.opcode :: bs ∧ r.form.read r.opcode bs = .ok (i, rest) := by
  match bytes with
  | [] => cases h
  | op :: bs =>
    by_cases hop : op ∈ referenceSet
    · obtain ⟨r, hr⟩ := exists_findRow_iff.2 hop
      obtain ⟨hmem, rfl⟩ := findRow_some hr
      exact ⟨r, hmem, bs, rfl, (decode_of_findRow hr bs).symm.trans h⟩
    · rw [decode_of_not_mem hop] at h
      cases h

theorem decode_encode (i : Instr) (rest : List Byte) : decode (encode i ++ rest) = .ok (i, rest) := by
  obtain ⟨r, hr, hmakes⟩ := exists_row_makes i
  rw [encode, List.cons_append, decode_of_findRow hr]
  exact Form.read_eq_ok_iff.2 ⟨i.operandBytes, hmakes, rfl⟩

theorem eq_encode_of_decode {bytes rest : List Byte} {i : Instr} (h : decode bytes = .ok (i, rest)) :
    bytes = encode i ++ rest := by
  obtain ⟨r, hr, bs, rfl, hread⟩ := exists_row_of_decode h
  obtain ⟨operands, hmakes, rfl⟩ := Form.read_eq_ok_iff.1 hread
  rw [encode_of_row_makes r hr i operands hmakes, List.cons_append]

/-- The decoded instruction carries the opcode byte that was read. -/
theorem opcode_of_decode {op : Byte} {bs rest : List Byte} {i : Instr} (h : decode (op :: bs) = .ok (i, rest)) :
    i.opcode = op := (List.cons.inj (eq_encode_of_decode h)).1.symm

/-- An opcode of the reference set and its operand bytes are one instruction (R84, R86). -/
theorem exists_decode {op : Byte} {bs : List Byte} (hop : op ∈ referenceSet) (hbs : bs.length = operandCount op) :
    ∃ i, decode (op :: bs) = .ok (i, []) := by
  obtain ⟨r, hr⟩ := exists_findRow_iff.2 hop
  rw [decode_of_findRow hr]
  exact Form.read_of_length (hbs.trans (operandCount_of_findRow hr))

/-- The decoder calls no opcode of the reference set unsupported. -/
theorem decode_ne_unsupported {op : Byte} (hop : op ∈ referenceSet) (bs : List Byte) (why : Unsupported) :
    decode (op :: bs) ≠ .error (.unsupported op why) := by
  obtain ⟨r, hr⟩ := exists_findRow_iff.2 hop
  rw [decode_of_findRow hr]
  exact r.form.read_ne_unsupported op op bs why

theorem encode_length (i : Instr) : (encode i).length = 1 + operandCount i.opcode := by
  rw [encode, List.length_cons, (Laws.OpcodeRow.all i).2, Nat.add_comm]

/-! ## The opcode bytes outside the reference set (R90) -/

/-- R90's three lists, then the reference set. -/
def classifiedBytes : List Byte := interruptOpcodes ++ otherModeOpcodes ++ listedUndocumented ++ referenceSet

/-- The four lists hold 2, 44, 105 and 105 bytes, and all 256 are among them; so each is there once. -/
theorem range_perm_classifiedBytes : (List.range 256).Perm (classifiedBytes.map (·.toNat)) := by
  have hall : List.range 256 ⊆ classifiedBytes.map (·.toNat) := by
    rw [List.subset_def]
    decide +kernel
  have hlength : (classifiedBytes.map (·.toNat)).length ≤ (List.range 256).length := by decide +kernel
  exact (List.subperm_of_subset List.nodup_range hall).perm_of_length_le hlength

theorem mem_classifiedBytes (op : Byte) : op ∈ classifiedBytes := by
  have h : op.toNat ∈ classifiedBytes.map (·.toNat) :=
    range_perm_classifiedBytes.subset (List.mem_range.2 op.isLt)
  obtain ⟨b, hb, hop⟩ := List.mem_map.1 h
  exact BitVec.eq_of_toNat_eq hop ▸ hb

theorem classifiedBytes_nodup : classifiedBytes.Nodup :=
  .of_map _ (range_perm_classifiedBytes.nodup List.nodup_range)

theorem classifiedBytes_disjoint :
    (interruptOpcodes.Disjoint otherModeOpcodes ∧ interruptOpcodes.Disjoint listedUndocumented ∧
      otherModeOpcodes.Disjoint listedUndocumented) ∧
    interruptOpcodes.Disjoint referenceSet ∧ otherModeOpcodes.Disjoint referenceSet ∧
      listedUndocumented.Disjoint referenceSet := by
  have h := classifiedBytes_nodup
  simp only [classifiedBytes, List.nodup_append', List.disjoint_append_left] at h
  obtain ⟨⟨⟨-, -, hIM⟩, -, hIU, hMU⟩, -, ⟨hIR, hMR⟩, hUR⟩ := h
  exact ⟨⟨hIM, hIU, hMU⟩, hIR, hMR, hUR⟩

theorem decode_interrupt {op : Byte} (h : op ∈ interruptOpcodes) (bs : List Byte) :
    decode (op :: bs) = .error (.unsupported op .interruptInstruction) := by
  obtain ⟨-, hIR, -, -⟩ := classifiedBytes_disjoint
  rw [decode_of_not_mem (hIR h), unsupportedReason, if_pos h]

theorem decode_otherMode {op : Byte} (h : op ∈ otherModeOpcodes) (bs : List Byte) :
    decode (op :: bs) = .error (.unsupported op .otherAddressingMode) := by
  obtain ⟨⟨hIM, -, -⟩, -, hMR, -⟩ := classifiedBytes_disjoint
  rw [decode_of_not_mem (hMR h), unsupportedReason, if_neg fun hI => hIM hI h, if_pos h]

theorem decode_undocumented {op : Byte} (h : op ∈ listedUndocumented) (bs : List Byte) :
    decode (op :: bs) = .error (.unsupported op .undocumented) := by
  obtain ⟨⟨-, hIU, hMU⟩, -, -, hUR⟩ := classifiedBytes_disjoint
  rw [decode_of_not_mem (hUR h), unsupportedReason, if_neg fun hI => hIU hI h, if_neg fun hM => hMU hM h]

theorem mem_referenceSet_of_not_listed {op : Byte} (hI : op ∉ interruptOpcodes) (hM : op ∉ otherModeOpcodes)
    (hU : op ∉ listedUndocumented) : op ∈ referenceSet := by
  simpa [classifiedBytes, hI, hM, hU] using mem_classifiedBytes op

end Sys2Proof
end

section
/-! PROOFS. What a CPU step does with the opcode at PC (spec/30_encoding.md R89, spec/40_step_and_operands.md R100),
and how many cycles it returns (R116 to R118). -/

namespace Sys2Proof.Machine

open Sys2Proof.Statements

/-! ## Which instruction is fetched -/

/-- The instruction fetched carries the opcode at PC, and starts with its opcode's base cost. -/
theorem fetchInstr_instr {s u : State} {i : Instr} (h : fetchInstr s = .instr i u) :
    i.opcode = rawRead s.pc s ∧ s.cfg.handler i.opcode = some u.cycles := by
  obtain ⟨j, rest, cost, hcost, hdecode, e⟩ | ⟨-, e⟩ := fetchInstr_cases s <;> rw [h] at e <;> cases e
  have hop := opcode_of_decode hdecode
  exact ⟨hop, hop ▸ hcost⟩

/-- With allowed parameters an opcode that has a handler is fetched as an instruction. -/
theorem fetchInstr_of_handler {s : State} (hcfg : s.cfg.wf = true) {cost : Nat}
    (h : s.cfg.handler (rawRead s.pc s) = some cost) : ∃ i u, fetchInstr s = .instr i u := by
  obtain ⟨i, _, _, -, -, e⟩ | ⟨hnone | ⟨_, herror⟩, -⟩ := fetchInstr_cases s
  · exact ⟨i, _, e⟩
  · rw [h] at hnone
    cases hnone
  · obtain ⟨i, hi⟩ := exists_decode (Config.mem_referenceSet_of_handler hcfg h) (fetchBytes_length _ (fetch8 s).2)
    rw [hi] at herror
    cases herror

/-- An opcode without a handler is fetched as unsupported. -/
theorem fetchInstr_of_no_handler {s : State} (h : s.cfg.handler (rawRead s.pc s) = none) :
    fetchInstr s = .unsupported (rawRead s.pc s) (fetch8 s).2 := by
  obtain ⟨_, _, _, hsome, -, -⟩ | ⟨-, e⟩ := fetchInstr_cases s
  · rw [h] at hsome
    cases hsome
  · exact e

/-! ## Whether the step halts -/

/-- Every instruction answers a next state (R209). -/
theorem exec_answers (i : Instr) (s : State) : ∃ t, exec i s = .next t := by
  cases i <;> exact ⟨_, rfl⟩

/-- An instruction that is executed halts nothing. -/
theorem step_of_instr {s u : State} {i : Instr} (hn : s.halted = none) (hf : fetchInstr s = .instr i u) :
    ∃ t, step s = .next t ∧ t.halted = none := by
  obtain ⟨t, ht⟩ := exec_answers i u
  obtain ⟨-, -, hhalted, -, -⟩ := exec_frame ht
  refine ⟨_, step_of_cpuStep ((cpuStep_of_instr hn hf).trans ht), ?_⟩
  rw [runTiming_halted, hhalted, fetchInstr_frame hf]
  exact hn

/-- An unsupported opcode halts the machine (R206). -/
theorem step_of_unsupported {s u : State} {op : Byte} (hn : s.halted = none)
    (hf : fetchInstr s = .unsupported op u) : ∃ t, step s = .next t ∧ t.halted ≠ none :=
  ⟨_, step_of_cpuStep (cpuStep_of_unsupported hn hf), by simp⟩

/-- A step that leaves nothing halted executed an instruction, and its timing steps kept the count of cycles. -/
theorem step_executes {s t : State} (h : step s = .next t) (hn : t.halted = none) :
    ∃ i u v, fetchInstr s = .instr i u ∧ exec i u = .next v ∧ t.cycles = v.cycles := by
  obtain ⟨v, hv, rfl⟩ := step_cases h
  obtain ⟨-, ⟨i, u, hf, hexec⟩ | ⟨op, u, -, rfl⟩⟩ := cpuStep_cases hv
  · exact ⟨i, u, v, hf, hexec, runTiming_cycles v⟩
  · simp at hn

/-! ## The cycles of one instruction -/

/-- The page penalty as a number (R118). -/
theorem absXPenalty_cycles (op : Byte) (base : Word) (s : State) :
    (absXPenalty op base s).cycles =
      s.cycles + (s.cfg.pagePenalty.contains op && crossesPage base (absXAddr base s)).toNat := by
  unfold absXPenalty
  split <;> simp_all

@[simp] theorem readAbsX_cycles (op : Byte) (base : Word) (s : State) :
    (readAbsX op base s).2.cycles = (absXPenalty op base s).cycles := by simp [readAbsX]

@[simp] theorem writeAbsX_cycles (op : Byte) (base : Word) (v : Byte) (s : State) :
    (writeAbsX op base v s).cycles = (absXPenalty op base s).cycles := by simp [writeAbsX]

@[simp] theorem modifyAbsX_cycles (op : Byte) (f : Byte → Byte → Byte × Byte) (base : Word) (s : State) :
    (modifyAbsX op f base s).cycles = (absXPenalty op base s).cycles := by simp [modifyAbsX]

/-- R117, R182: a branch costs at most two cycles over its base cost. -/
theorem branch_cycles_bounds (cond : Bool) (d : Byte) (s : State) :
    s.cycles ≤ (branch cond d s).cycles ∧ (branch cond d s).cycles ≤ s.cycles + 2 := by
  have := Bool.toNat_le (crossesPage (branchTarget d s.pc) s.pc)
  unfold branch
  split
  · dsimp only
    omega
  · omega

/-- The most cycles an instruction may take over its base cost, with the page penalty charged to 0xBD alone. -/
def greatestExtra : Instr → Nat
  | .bpl _ | .bmi _ | .bvc _ | .bvs _ | .bcc _ | .bcs _ | .bne _ | .beq _ => 2
  | .ldaAbsX _ => 1
  | _ => 0

/-- Only a branch and the instruction 0xBD take more cycles than their base cost. -/
theorem exec_cycles_bounds {i : Instr} {s t : State} (hp : s.cfg.pagePenalty = [0xBD]) (h : exec i s = .next t) :
    s.cycles ≤ t.cycles ∧ t.cycles ≤ s.cycles + greatestExtra i := by
  cases i <;> cases h
  case bpl | bmi | bvc | bvs | bcc | bcs | bne | beq => exact branch_cycles_bounds _ _ s
  case ldaAbsX base =>
    have := Bool.toNat_le (s.cfg.pagePenalty.contains 0xBD && crossesPage base (absXAddr base s))
    simp only [loadA_cycles, readAbsX_cycles, absXPenalty_cycles, greatestExtra]
    omega
  all_goals simp [absXPenalty_cycles, hp, greatestExtra]

/-- R88: the handler list of the default parameters gives every instruction its base cost. -/
theorem defaultConfig_handler (i : Instr) : defaultConfig.handler i.opcode = some (defaultCost i) := by
  cases i <;> rfl

/-- The default costs leave room for the extra cycles. -/
theorem defaultCost_bounds (i : Instr) : 2 ≤ defaultCost i ∧ defaultCost i + greatestExtra i ≤ 7 := by
  cases i <;> exact ⟨Nat.le_of_ble_eq_true rfl, Nat.le_of_ble_eq_true rfl⟩

end Sys2Proof.Machine
end

section
/-! PROOFS. The statements about the encoding (spec/30_encoding.md). -/

namespace Sys2Proof.Proofs

open Sys2Proof Sys2Proof.Machine Sys2Proof.Statements

/-- Settles O29: the row of the instruction's opcode makes the instruction of the operand bytes the encoder writes, so
its form reads it off them. -/
theorem decodeInvertsEncode : Obligations.DecodeInvertsEncode := decode_encode

/-- Settles O30: the row that read the bytes makes the instruction of them, and the encoder writes what a row
makes as that row's bytes. -/
theorem decodedBytesAreTheEncoding : Obligations.DecodedBytesAreTheEncoding := fun _ _ _ => eq_encode_of_decode

/-- Settles O31: R90's lists are disjoint from the reference set and from each other, and hold every byte outside it. -/
theorem decodeRejectsExactlyTheUnsupportedOpcodes : Obligations.DecodeRejectsExactlyTheUnsupportedOpcodes :=
  fun _ bs => ⟨fun hI => decode_interrupt hI bs, fun hM => decode_otherMode hM bs,
    fun hU => decode_undocumented hU bs, fun hI hM hU => decode_ne_unsupported (mem_referenceSet_of_not_listed hI hM hU) bs⟩

/-- Settles O15: the opcode at PC has a handler exactly if the fetch gives an instruction; an instruction completes
without halting, and anything else halts. -/
theorem stepHaltsExactlyOnUnimplementedOpcodes : Obligations.StepHaltsExactlyOnUnimplementedOpcodes := by
  intro s hn hcfg
  cases hc : s.cfg.handler (rawRead s.pc s) with
  | some cost =>
    obtain ⟨i, u, hf⟩ := fetchInstr_of_handler hcfg hc
    obtain ⟨t, ht, htn⟩ := step_of_instr hn hf
    exact ⟨t, ht, by simp [htn]⟩
  | none =>
    obtain ⟨t, ht, hthalted⟩ := step_of_unsupported hn (fetchInstr_of_no_handler hc)
    exact ⟨t, ht, by simp [hthalted]⟩

/-- Settles O18: the step returns the base cost of the instruction it executed, from 2 to 7, and what a branch or a
page crossing adds, which never passes 7. -/
theorem stepCostsTwoToSevenCyclesByDefault : Obligations.StepCostsTwoToSevenCyclesByDefault := by
  refine ⟨defaultConfig_handler, rfl, fun s t hhandlers hpenalty h hn => ?_⟩
  obtain ⟨i, u, v, hf, hexec, hcycles⟩ := step_executes h hn
  have hbase : u.cycles = defaultCost i := by
    have hcost := (fetchInstr_instr hf).2
    rw [Config.handler, hhandlers] at hcost
    exact Option.some.inj (hcost.symm.trans (defaultConfig_handler i))
  have hcfg : u.cfg = s.cfg := by rw [fetchInstr_frame hf]
  have hexecBounds := exec_cycles_bounds (hcfg ▸ hpenalty) hexec
  have hcostBounds := defaultCost_bounds i
  omega

/-- Settles O32: each word is an encoding. -/
theorem wordsOfTheTableDecodeAsWritten : Obligations.WordsOfTheTableDecodeAsWritten :=
  ⟨decode_encode (.ldaImm 0x05) [], decode_encode (.staAbs 0x2000) [], decode_encode (.adcAbsX 0x1234) [],
    decode_encode (.rolZp 0x10) [], decode_encode .rorAcc [], decode_encode .plp [], decode_encode (.bne 0xFA) [],
    decode_encode .sec []⟩

/-- Settles O33: the encoder writes as many operand bytes as the opcode's row consumes, which are at most two. -/
theorem lengthDependsOnTheOpcodeAlone : Obligations.LengthDependsOnTheOpcodeAlone := by
  refine ⟨fun i => ⟨encode_length i, ?_⟩, fun i j h => ?_⟩
  · have := operandCount_le i.opcode
    rw [encode_length]
    omega
  · rw [encode_length, encode_length, h]

end Sys2Proof.Proofs
end

section
/-! PROOFS. The rules of the instruction stream, the operand forms, the additions and compares, and the stack
(spec/40_step_and_operands.md): the words of the statements are tied to the model's operations, and for each operand
form one rule takes what an effect does to the byte read to what the statement says of the instruction. -/

namespace Sys2Proof

open Sys2Proof.Statements

/-- An encoding the encoder writes is one the decoder reads, so a row of R88 is settled by the encoder. -/
theorem rowIs_of_encode {i : Instr} {bytes : List Byte} (h : encode i = bytes) : RowIs i bytes :=
  ⟨by rw [← h, ← List.append_nil (encode i), decode_encode], h⟩

end Sys2Proof

namespace Sys2Proof.Machine

open Sys2Proof.Statements

/-! ## Fetch and step -/

/-- The fetch that a whole instruction's bytes come from is the front half of the CPU step (R100). -/
theorem fetchInstr_of_fetchBytes {s t : State} {bytes : List Byte} {i : Instr} {cost : Nat}
    (hdecode : decode bytes = .ok (i, [])) (hfetch : fetchBytes bytes.length s = (bytes, t))
    (hcost : s.cfg.handler i.opcode = some cost) : fetchInstr s = .instr i { t with cycles := cost } := by
  obtain rfl : bytes = encode i := by simpa using eq_encode_of_decode hdecode
  rw [encode_length, Nat.add_comm, fetchBytes_succ, encode, Prod.mk.injEq, List.cons.injEq] at hfetch
  obtain ⟨⟨hop, hoperands⟩, hstate⟩ := hfetch
  simp only [fetchInstr, fetchOperands, fetch8_fst, hop, hcost, hoperands, hstate]
  rw [← encode, hdecode]

/-- A step that executes an instruction runs three timing steps for each of its cycles (R225). -/
theorem step_of_exec {s u v : State} {i : Instr} (hn : s.halted = none) (hf : fetchInstr s = .instr i u)
    (hexec : exec i u = .next v) : step s = .next (timingSteps (3 * v.cycles) v) := by
  have hv : v.halted = none := by
    obtain ⟨-, -, hhalted, -, -⟩ := exec_frame hexec
    rw [hhalted, fetchInstr_frame hf]
    exact hn
  rw [step_of_cpuStep ((cpuStep_of_instr hn hf).trans hexec), runTiming_of_running hv]

/-! ## The addresses of the statements are those of the operand forms -/

theorem littleEndian_toNat (l h : Byte) : (littleEndian l h).toNat = 256 * h.toNat + l.toNat := by
  rw [littleEndian, BitVec.toNat_ofNat]
  omega

theorem littleEndian_eq_wordOf (l h : Byte) : littleEndian l h = wordOf l h := by
  apply BitVec.eq_of_toNat_eq
  rw [littleEndian_toNat, wordOf_toNat]

@[simp] theorem lo8_littleEndian (l h : Byte) : lo8 (littleEndian l h) = l := by
  rw [littleEndian_eq_wordOf, lo8_wordOf]

@[simp] theorem hi8_littleEndian (l h : Byte) : hi8 (littleEndian l h) = h := by
  rw [littleEndian_eq_wordOf, hi8_wordOf]

theorem zeroPage_eq_zpAddr (z : Byte) : zeroPage z = zpAddr z := by
  apply BitVec.eq_of_toNat_eq
  simp [zeroPage, zpAddr, zext16]

theorem indexedX_eq_absXAddr (base : Word) (s : State) : indexedX base s = absXAddr base s := by
  apply BitVec.eq_of_toNat_eq
  simp [indexedX, absXAddr, zext16]

theorem stackAt_eq_stackAddr (sp : Byte) : stackAt sp = stackAddr sp := by
  apply BitVec.eq_of_toNat_eq
  simp [stackAt, stackAddr]

/-- R117: two addresses lie on different pages exactly if the quotients by 256 differ. -/
theorem crossesPage_iff {w₁ w₂ : Word} : crossesPage w₁ w₂ = true ↔ w₁.toNat / 256 ≠ w₂.toNat / 256 := by
  rw [crossesPage, bne_iff_ne, ne_eq, ← BitVec.toNat_inj, hi8_toNat, hi8_toNat]

theorem absXPenalty_eq (op : Byte) (base : Word) (s : State) :
    absXPenalty op base s = { s with cycles := s.cycles + pageExtra op base s } := by
  simp only [absXPenalty, pageExtra, Bool.and_eq_true, List.contains_iff_mem, crossesPage_iff, indexedX_eq_absXAddr]
  split <;> rfl

/-! ## Bits written one flag after another -/

theorem bitsBecome_nil (p : Byte) : BitsBecome p p [] := ⟨by simp, fun _ _ => rfl⟩

/-- Writing a flag that was not written before adds its bit to those written (R12). -/
theorem bitsBecome_putFlag {p q : Byte} {ws : List (Nat × Bool)} (h : BitsBecome p q ws) (f : Flag) (b : Bool)
    (hf : f.bit ∉ ws.map (·.1)) : BitsBecome p (putFlag f b q) (ws ++ [(f.bit, b)]) := by
  obtain ⟨hwritten, hkept⟩ := h
  constructor
  · intro w hw
    rw [putFlag_bit]
    rcases List.mem_append.1 hw with hw | hw
    · have hne : w.1 ≠ f.bit := fun he => hf (he ▸ List.mem_map_of_mem hw)
      rw [if_neg hne, hwritten w hw]
    · obtain rfl := List.mem_singleton.1 hw
      rw [if_pos rfl]
  · intro k hk
    rw [List.map_append, List.mem_append, not_or] at hk
    obtain ⟨hkws, hkf⟩ := hk
    have hne : k ≠ f.bit := by simpa using hkf
    rw [putFlag_bit, if_neg hne, hkept k hkws]

/-- SetZN (R111) adds Z and N to the bits written. -/
theorem bitsBecome_setZN {p q : Byte} {ws : List (Nat × Bool)} (h : BitsBecome p q ws) (v : Byte)
    (hz : 1 ∉ ws.map (·.1)) (hn : 7 ∉ ws.map (·.1)) : BitsBecome p (setZN v q) (ws ++ zn v) := by
  have hzero : (v == 0) = decide (v.toNat = 0) := by
    rw [beq_eq_decide, decide_eq_decide, ← BitVec.toNat_inj]
    rfl
  have hsign : v.msb = decide (128 ≤ v.toNat) := BitVec.msb_eq_decide v
  rw [setZN, hzero, hsign, zn, List.append_cons]
  exact bitsBecome_putFlag (bitsBecome_putFlag h .z _ hz) .n _ (by simpa [Flag.bit] using hn)

theorem carryOf_eq_carryIn (p : Byte) : carryOf p = carryIn p := by
  unfold carryOf carryIn getFlag Flag.bit
  cases p.getLsbD 0 <;> rfl

/-- The bits Add writes (R113), in the order C, V, Z, N. -/
theorem bitsBecome_addWithCarry (a m p : Byte) :
    BitsBecome p (addWithCarry a m p).2 (sumBits a m (carryOf p)).2 := by
  have hc := bitsBecome_putFlag (bitsBecome_nil p) .c (decide (255 < a.toNat + m.toNat + carryIn p)) (by simp)
  have hv := bitsBecome_putFlag hc .v
    (decide (a.msb = m.msb ∧ (addWithCarry a m p).1.msb ≠ a.msb)) (by simp [Flag.bit])
  have hzn := bitsBecome_setZN hv (addWithCarry a m p).1 (by simp [Flag.bit]) (by simp [Flag.bit])
  have hrule (r : Byte) : (a.msb == m.msb && r.msb != a.msb) = decide (a.msb = m.msb ∧ r.msb ≠ a.msb) := by
    simp [bne, beq_eq_decide]
  simp only [carryOf_eq_carryIn, addWithCarry, hrule]
  exact hzn

/-- The bits Compare writes (R112). -/
theorem bitsBecome_compareFlags (r m p : Byte) : BitsBecome p (compareFlags r m p) (compareBits r m) := by
  have hdiff : r - m = BitVec.ofInt 8 ((r.toNat : Int) - m.toNat) := by
    apply BitVec.eq_of_toNat_eq
    rw [BitVec.toNat_sub, BitVec.toNat_ofInt]
    omega
  rw [compareFlags, compareBits, ← hdiff]
  exact bitsBecome_setZN (bitsBecome_putFlag (bitsBecome_nil p) .c _ (by simp)) _ (by simp [Flag.bit])
    (by simp [Flag.bit])

/-! ## The reading forms -/

section Reading

variable {R : Byte → State → State → Prop} {effect : Byte × State → State} {op : Byte}
  (hR : ∀ r : Byte × State, R r.1 r.2 (effect r))
include hR

/-- The effect on the byte that one public read of `ea` gave (R110). -/
theorem readsAt_of_exec {i : Instr} {s : State} {ea : Word} {extra : Nat}
    (h : exec i s = .next (effect (memRead ea { s with cycles := s.cycles + extra }))) : ReadsAt i s ea extra R :=
  ⟨_, _, afterRead_memRead _ ea, hR (memRead ea { s with cycles := s.cycles + extra }), h⟩

theorem immReads_of_exec {mk : Byte → Instr} (hrow : ∀ v, encode (mk v) = [op, v])
    (h : ∀ v s, exec (mk v) s = .next (effect (v, s))) : ImmReads op mk R := fun s v =>
  ⟨rowIs_of_encode (hrow v), _, hR (v, s), h v s⟩

theorem zpReads_of_exec {mk : Byte → Instr} (hrow : ∀ z, encode (mk z) = [op, z])
    (h : ∀ z s, exec (mk z) s = .next (effect (readZp z s))) : ZpReads op mk R := fun s z =>
  ⟨rowIs_of_encode (hrow z), readsAt_of_exec hR (by rw [zeroPage_eq_zpAddr]; exact h z s)⟩

theorem absReads_of_exec {mk : Word → Instr} (hrow : ∀ a, encode (mk a) = [op, lo8 a, hi8 a])
    (h : ∀ a s, exec (mk a) s = .next (effect (readAbs a s))) : AbsReads op mk R := fun s l r =>
  ⟨rowIs_of_encode (by simp [hrow]), readsAt_of_exec hR (h _ s)⟩

theorem absXReads_of_exec {mk : Word → Instr} (hrow : ∀ a, encode (mk a) = [op, lo8 a, hi8 a])
    (h : ∀ a s, exec (mk a) s = .next (effect (readAbsX op a s))) : AbsXReads op mk R := fun s l r =>
  ⟨rowIs_of_encode (by simp [hrow]),
    readsAt_of_exec hR (by rw [h, readAbsX, absXPenalty_eq, indexedX_eq_absXAddr])⟩

end Reading

theorem addsA_addA (r : Byte × State) : AddsA r.1 r.2 (addA r) :=
  ⟨_, bitsBecome_addWithCarry r.2.a r.1 r.2.p, by rw [addA, sumBits, carryOf_eq_carryIn, addWithCarry_fst]⟩

theorem comparesA_compareA (r : Byte × State) : ComparesA r.1 r.2 (compareA r) :=
  ⟨_, bitsBecome_compareFlags r.2.a r.1 r.2.p, rfl⟩

theorem comparesX_compareX (r : Byte × State) : ComparesX r.1 r.2 (compareX r) :=
  ⟨_, bitsBecome_compareFlags r.2.x r.1 r.2.p, rfl⟩

theorem comparesY_compareY (r : Byte × State) : ComparesY r.1 r.2 (compareY r) :=
  ⟨_, bitsBecome_compareFlags r.2.y r.1 r.2.p, rfl⟩

/-! ## Addition against exact arithmetic -/

theorem carryOf_le_one (p : Byte) : carryOf p ≤ 1 := by
  unfold carryOf
  split <;> omega

/-- R113's sign rule is signed overflow: the exact signed sum leaves -128 to 127 exactly if the operands share a
sign that the result does not have. -/
theorem signRule_iff_overflow (a m : Byte) {c : Nat} (hc : c ≤ 1) :
    a.msb = m.msb ∧ (BitVec.ofNat 8 (a.toNat + m.toNat + c)).msb ≠ a.msb ↔
      a.toInt + m.toInt + c < -128 ∨ 127 < a.toInt + m.toInt + c := by
  have ha := a.isLt
  have hm := m.isLt
  simp only [BitVec.msb_eq_decide, BitVec.toInt_eq_toNat_cond, BitVec.toNat_ofNat, decide_eq_decide, ne_eq]
  split <;> split <;> omega

/-- The result and the carry out are the exact unsigned sum: it is below 512, so the carry is its ninth bit (R113). -/
theorem addWithCarry_exact (a m p : Byte) :
    (addWithCarry a m p).1.toNat + 256 * carryOf (addWithCarry a m p).2 = a.toNat + m.toNat + carryOf p := by
  have hc := carryOf_le_one p
  have hcarry : (addWithCarry a m p).2.getLsbD 0 = decide (255 < a.toNat + m.toNat + carryIn p) :=
    addWithCarry_bit a m p 0
  rw [carryOf, hcarry, addWithCarry_fst, ← carryOf_eq_carryIn, BitVec.toNat_ofNat]
  simp only [decide_eq_true_eq]
  split <;> omega

/-- V is set exactly if the exact signed sum leaves -128 to 127 (R113). -/
theorem addWithCarry_overflow (a m p : Byte) :
    (addWithCarry a m p).2.getLsbD 6 = true ↔
      a.toInt + m.toInt + carryOf p < -128 ∨ 127 < a.toInt + m.toInt + carryOf p := by
  have hrule : (addWithCarry a m p).2.getLsbD 6 = (a.msb == m.msb && (addWithCarry a m p).1.msb != a.msb) :=
    addWithCarry_bit a m p 6
  rw [hrule, addWithCarry_fst, ← carryOf_eq_carryIn, Bool.and_eq_true, beq_iff_eq, bne_iff_ne]
  exact signRule_iff_overflow a m (carryOf_le_one p)

/-! ## The stack -/

/-- Push is the store, then SP - 1 (R114). -/
theorem push_eq (v : Byte) (s : State) :
    push v s = { s with mem := s.mem.write (stackAddr s.sp).toNat v, sp := s.sp - 1 } := by
  rw [push, memWrite_eq]

/-- What a push leaves at an address. -/
theorem rawRead_push (v : Byte) (s : State) (b : Word) :
    rawRead b (push v s) = if b = stackAddr s.sp then v else rawRead b s := by
  rw [push_eq]
  exact storedAt_write s (stackAddr s.sp) v b

end Sys2Proof.Machine
end

section
/-! PROOFS. The statements about the step, the operand forms and the shared operations
(spec/40_step_and_operands.md). -/

namespace Sys2Proof.Proofs

open Sys2Proof Sys2Proof.Machine Sys2Proof.Statements

/-- Settles O40: the carry is the ninth bit of the unsigned sum, and the sign rule is signed overflow. -/
theorem adcFlagsMatchExactArithmetic : Obligations.AdcFlagsMatchExactArithmetic := fun s v =>
  ⟨_, exec_adcImm v s, addWithCarry_exact s.a v s.p, addWithCarry_overflow s.a v s.p⟩

/-- Settles O10: the fetch is a public read, and the statement's PC is PC + 1 at 16 bits. -/
theorem fetchReadsAtPcAndAdvances : Obligations.FetchReadsAtPcAndAdvances := by
  intro s
  have hpc : s.pc + 1 = BitVec.ofNat 16 (s.pc.toNat + 1) := by simp [BitVec.ofNat_add]
  refine ⟨fetch8_fst s, _, afterRead_memRead s s.pc, ?_⟩
  rw [fetch8, hpc]

/-- Settles O12: the bytes are the instruction's encoding, so the step's own fetch of the opcode and its operand bytes
reads exactly them. -/
theorem stepRunsTheDecodedInstruction : Obligations.StepRunsTheDecodedInstruction := by
  intro s t bytes i cost hn hdecode hfetch hcost
  obtain ⟨u, hu⟩ := exec_answers i { t with cycles := cost }
  exact ⟨u, hu, step_of_exec hn (fetchInstr_of_fetchBytes hdecode hfetch hcost) hu⟩

/-- Settles O38: Add writes the bits R113 names, and each mode's rule takes that to its instruction. -/
theorem adcAddsWithCarry : Obligations.AdcAddsWithCarry :=
  ⟨immReads_of_exec addsA_addA (fun _ => rfl) exec_adcImm, zpReads_of_exec addsA_addA (fun _ => rfl) exec_adcZp,
    absReads_of_exec addsA_addA (fun _ => rfl) exec_adcAbs, absXReads_of_exec addsA_addA (fun _ => rfl) exec_adcAbsX⟩

/-- Settles O42: Compare writes the bits R112 names, whichever register it takes. -/
theorem comparesSetCarryZeroNegative : Obligations.ComparesSetCarryZeroNegative :=
  ⟨immReads_of_exec comparesA_compareA (fun _ => rfl) exec_cmpImm,
    zpReads_of_exec comparesA_compareA (fun _ => rfl) exec_cmpZp,
    absReads_of_exec comparesA_compareA (fun _ => rfl) exec_cmpAbs,
    absXReads_of_exec comparesA_compareA (fun _ => rfl) exec_cmpAbsX,
    immReads_of_exec comparesX_compareX (fun _ => rfl) exec_cpxImm,
    zpReads_of_exec comparesX_compareX (fun _ => rfl) exec_cpxZp,
    absReads_of_exec comparesX_compareX (fun _ => rfl) exec_cpxAbs,
    immReads_of_exec comparesY_compareY (fun _ => rfl) exec_cpyImm,
    zpReads_of_exec comparesY_compareY (fun _ => rfl) exec_cpyZp,
    absReads_of_exec comparesY_compareY (fun _ => rfl) exec_cpyAbs⟩

/-- Settles O50: the pop reads the address the push wrote, because SP - 1 + 1 is SP modulo 256. -/
theorem pushAndPopUseTheStackPage : Obligations.PushAndPopUseTheStackPage := by
  intro s v
  simp only [stackAt_eq_stackAddr]
  have hsp : s.sp - 1 + 1 = s.sp := BitVec.sub_add_cancel s.sp 1
  refine ⟨⟨_, storedAt_write s (stackAddr s.sp) v, push_eq v s⟩, pop_fst s, afterRead_memRead _ _, ?_, ?_⟩
  · rw [pop_fst, push_sp, hsp, rawRead_push, if_pos rfl]
  · rw [pop_sp, push_sp, hsp]

end Sys2Proof.Proofs
end

section
/-! PROOFS. The rules of the loads and the stores (spec/41_load_store.md): what SetZN writes, which is what every load
does to P, and for each storing form one rule from the write of a register to what the statement says of the
instruction. -/

namespace Sys2Proof.Machine

open Sys2Proof.Statements

/-! ## Loads -/

/-- SetZN alone writes Z and N and no other bit (R111). -/
theorem bitsBecome_setZN_self (v p : Byte) : BitsBecome p (setZN v p) (zn v) :=
  bitsBecome_setZN (bitsBecome_nil p) v (by simp) (by simp)

theorem loadsA_loadA (r : Byte × State) : LoadsA r.1 r.2 (loadA r) := ⟨_, bitsBecome_setZN_self r.1 r.2.p, rfl⟩

theorem loadsX_loadX (r : Byte × State) : LoadsX r.1 r.2 (loadX r) := ⟨_, bitsBecome_setZN_self r.1 r.2.p, rfl⟩

theorem loadsY_loadY (r : Byte × State) : LoadsY r.1 r.2 (loadY r) := ⟨_, bitsBecome_setZN_self r.1 r.2.p, rfl⟩

/-! ## The storing forms -/

/-- The effect of one public write of `v` at `ea`: it stores the byte and changes nothing else (R52, R222). -/
theorem storesAt_of_exec {i : Instr} {s : State} {ea : Word} {extra : Nat} {v : Byte}
    (h : exec i s = .next (memWrite ea v { s with cycles := s.cycles + extra })) : StoresAt i s ea extra v :=
  ⟨_, storedAt_write s ea v, by rw [h, memWrite_eq]⟩

section Storing

variable {src : State → Byte} {op : Byte}

theorem zpStores_of_exec {mk : Byte → Instr} (hrow : ∀ z, encode (mk z) = [op, z])
    (h : ∀ z s, exec (mk z) s = .next (writeZp z (src s) s)) : ZpStores op mk src := fun s z =>
  ⟨rowIs_of_encode (hrow z), storesAt_of_exec (by rw [zeroPage_eq_zpAddr]; exact h z s)⟩

theorem absStores_of_exec {mk : Word → Instr} (hrow : ∀ a, encode (mk a) = [op, lo8 a, hi8 a])
    (h : ∀ a s, exec (mk a) s = .next (writeAbs a (src s) s)) : AbsStores op mk src := fun s l r =>
  ⟨rowIs_of_encode (by simp [hrow]), storesAt_of_exec (h _ s)⟩

theorem absXStores_of_exec {mk : Word → Instr} (hrow : ∀ a, encode (mk a) = [op, lo8 a, hi8 a])
    (h : ∀ a s, exec (mk a) s = .next (writeAbsX op a (src s) s)) : AbsXStores op mk src := fun s l r =>
  ⟨rowIs_of_encode (by simp [hrow]),
    storesAt_of_exec (by rw [h, writeAbsX, absXPenalty_eq, indexedX_eq_absXAddr])⟩

end Storing

end Sys2Proof.Machine
end

section
/-! PROOFS. The statements about loads and stores (spec/41_load_store.md). -/

namespace Sys2Proof.Proofs

open Sys2Proof Sys2Proof.Machine Sys2Proof.Statements

/-- Settles O34: the load sets A and SetZN, and each mode's rule takes that to its instruction. -/
theorem ldaLoadsTheAccumulator : Obligations.LdaLoadsTheAccumulator :=
  ⟨immReads_of_exec loadsA_loadA (fun _ => rfl) exec_ldaImm, zpReads_of_exec loadsA_loadA (fun _ => rfl) exec_ldaZp,
    absReads_of_exec loadsA_loadA (fun _ => rfl) exec_ldaAbs,
    absXReads_of_exec loadsA_loadA (fun _ => rfl) exec_ldaAbsX⟩

/-- Settles O35: the same rules as for LDA, with X or Y as the register loaded. -/
theorem ldxAndLdyLoadTheIndexRegisters : Obligations.LdxAndLdyLoadTheIndexRegisters :=
  ⟨immReads_of_exec loadsX_loadX (fun _ => rfl) exec_ldxImm, zpReads_of_exec loadsX_loadX (fun _ => rfl) exec_ldxZp,
    absReads_of_exec loadsX_loadX (fun _ => rfl) exec_ldxAbs,
    immReads_of_exec loadsY_loadY (fun _ => rfl) exec_ldyImm, zpReads_of_exec loadsY_loadY (fun _ => rfl) exec_ldyZp,
    absReads_of_exec loadsY_loadY (fun _ => rfl) exec_ldyAbs,
    absXReads_of_exec loadsY_loadY (fun _ => rfl) exec_ldyAbsX⟩

/-- Settles O36: a store is one public write of the register, and the observer does nothing on a write. -/
theorem storesWriteTheRegisterAlone : Obligations.StoresWriteTheRegisterAlone :=
  ⟨zpStores_of_exec (fun _ => rfl) exec_staZp, absStores_of_exec (fun _ => rfl) exec_staAbs,
    absXStores_of_exec (fun _ => rfl) exec_staAbsX,
    zpStores_of_exec (fun _ => rfl) exec_stxZp, absStores_of_exec (fun _ => rfl) exec_stxAbs,
    zpStores_of_exec (fun _ => rfl) exec_styZp, absStores_of_exec (fun _ => rfl) exec_styAbs⟩

end Sys2Proof.Proofs
end

section
/-! PROOFS. The rules of the subtraction and the bit test (spec/42_arithmetic_compare.md): the complement of a byte as
a number, which turns the exact sum of Add into the exact difference of R141, and the bits BIT writes. -/

namespace Sys2Proof.Machine

open Sys2Proof.Statements

/-! ## The complement of the operand -/

theorem complement_eq_ofNat (m : Byte) : ~~~m = BitVec.ofNat 8 (255 - m.toNat) := by
  apply BitVec.eq_of_toNat_eq
  rw [BitVec.toNat_not, BitVec.toNat_ofNat]
  omega

/-- The signed value of the complement: the sign bit flips together with the seven bits below it. -/
theorem complement_toInt (m : Byte) : (~~~m).toInt = -m.toInt - 1 := by
  have hm := m.isLt
  simp only [BitVec.toInt_eq_toNat_cond, BitVec.toNat_not]
  split <;> split <;> omega

/-! ## Subtraction against exact arithmetic -/

theorem carryOf_eq_one_iff (p : Byte) : carryOf p = 1 ↔ p.getLsbD 0 = true := by
  simp [carryOf]

/-- Add with the complement gives the exact unsigned difference, with a borrow of 256 where the carry out is 0
(R141). -/
theorem subtract_exact (a m p : Byte) :
    ((addWithCarry a (~~~m) p).1.toNat : Int) =
      (a.toNat : Int) - m.toNat - (1 - carryOf p) + 256 * (1 - carryOf (addWithCarry a (~~~m) p).2) := by
  have hm := m.isLt
  have hsum := addWithCarry_exact a (~~~m) p
  rw [BitVec.toNat_not] at hsum
  omega

/-- The carry out is 1 exactly if there was no borrow: a result below 256 leaves no other choice (R141). -/
theorem subtract_carry (a m p : Byte) :
    (addWithCarry a (~~~m) p).2.getLsbD 0 = true ↔ 0 ≤ (a.toNat : Int) - m.toNat - (1 - carryOf p) := by
  have hdiff := subtract_exact a m p
  have hresult := (addWithCarry a (~~~m) p).1.isLt
  have hcarry := carryOf_le_one (addWithCarry a (~~~m) p).2
  rw [← carryOf_eq_one_iff]
  omega

/-- V is set exactly if the exact signed difference leaves -128 to 127 (R141). -/
theorem subtract_overflow (a m p : Byte) :
    (addWithCarry a (~~~m) p).2.getLsbD 6 = true ↔
      a.toInt - m.toInt - (1 - carryOf p) < -128 ∨ 127 < a.toInt - m.toInt - (1 - carryOf p) := by
  have hdiff : a.toInt + (~~~m).toInt + carryOf p = a.toInt - m.toInt - (1 - carryOf p) := by
    rw [complement_toInt]
    omega
  rw [addWithCarry_overflow, hdiff]

theorem subtractsA_subtractA (r : Byte × State) : SubtractsA r.1 r.2 (subtractA r) := by
  rw [SubtractsA, ← complement_eq_ofNat]
  exact addsA_addA (~~~r.1, r.2)

/-! ## The bit test -/

/-- The bits BIT writes (R145), in the order Z, N, V. -/
theorem bitsBecome_bitTestFlags (a m p : Byte) :
    BitsBecome p (bitTestFlags a m p) [(1, decide (a &&& m = 0)), (7, m.getLsbD 7), (6, m.getLsbD 6)] := by
  have hz := bitsBecome_putFlag (bitsBecome_nil p) .z (a &&& m == 0) (by simp)
  have hzn := bitsBecome_putFlag hz .n (m.getLsbD 7) (by simp [Flag.bit])
  exact bitsBecome_putFlag hzn .v (m.getLsbD 6) (by simp [Flag.bit])

theorem testsBits_bitTestA (r : Byte × State) : TestsBits r.1 r.2 (bitTestA r) :=
  ⟨_, bitsBecome_bitTestFlags r.2.a r.1 r.2.p, rfl⟩

end Sys2Proof.Machine
end

section
/-! PROOFS. The statements about subtraction and the bit test (spec/42_arithmetic_compare.md). -/

namespace Sys2Proof.Proofs

open Sys2Proof Sys2Proof.Machine Sys2Proof.Statements

/-- Settles O41: the complement of m is 255 - m unsigned and -m - 1 signed, so the exact sum of Add is the exact
difference, and its carry is the borrow inverted. -/
theorem sbcFlagsMatchExactArithmetic : Obligations.SbcFlagsMatchExactArithmetic := fun s v =>
  ⟨_, exec_sbcImm v s, subtract_exact s.a v s.p, subtract_carry s.a v s.p, subtract_overflow s.a v s.p⟩

/-- Settles O39: SBC is Add on the complement, and each mode's rule takes that to its instruction. -/
theorem sbcAddsTheComplement : Obligations.SbcAddsTheComplement :=
  ⟨immReads_of_exec subtractsA_subtractA (fun _ => rfl) exec_sbcImm,
    zpReads_of_exec subtractsA_subtractA (fun _ => rfl) exec_sbcZp,
    absReads_of_exec subtractsA_subtractA (fun _ => rfl) exec_sbcAbs,
    absXReads_of_exec subtractsA_subtractA (fun _ => rfl) exec_sbcAbsX⟩

/-- Settles O43: the bit test writes the bits R145 names and nothing but P. -/
theorem bitTestsMemoryAgainstA : Obligations.BitTestsMemoryAgainstA :=
  ⟨zpReads_of_exec testsBits_bitTestA (fun _ => rfl) exec_bitZp,
    absReads_of_exec testsBits_bitTestA (fun _ => rfl) exec_bitAbs⟩

end Sys2Proof.Proofs
end

section
/-! PROOFS. The rules of the logic, the shifts, the rotates and the increments
(spec/43_logic_shift_incdec.md): each operation of the model is tied to the result and the bits that the statements
name, and for each modifying form one rule takes that to what the statement says of the instruction. -/

namespace Sys2Proof.Machine

open Sys2Proof.Statements

/-! ## Logic -/

theorem combinesA_andA (r : Byte × State) : CombinesA (· &&& ·) r.1 r.2 (andA r) :=
  ⟨_, bitsBecome_setZN_self (r.2.a &&& r.1) r.2.p, rfl⟩

theorem combinesA_orA (r : Byte × State) : CombinesA (· ||| ·) r.1 r.2 (orA r) :=
  ⟨_, bitsBecome_setZN_self (r.2.a ||| r.1) r.2.p, rfl⟩

theorem combinesA_xorA (r : Byte × State) : CombinesA (· ^^^ ·) r.1 r.2 (xorA r) :=
  ⟨_, bitsBecome_setZN_self (r.2.a ^^^ r.1) r.2.p, rfl⟩

/-! ## The results as numbers -/

theorem shiftLeft_one_eq_ofNat (v : Byte) : v <<< 1 = BitVec.ofNat 8 (2 * v.toNat) := by
  apply BitVec.eq_of_toNat_eq
  simp [Nat.shiftLeft_eq, Nat.mul_comm]

theorem shiftRight_one_eq_ofNat (v : Byte) : v >>> 1 = BitVec.ofNat 8 (v.toNat / 2) := by
  apply BitVec.eq_of_toNat_eq
  rw [BitVec.toNat_ushiftRight, Nat.shiftRight_eq_div_pow, BitVec.toNat_ofNat]
  omega

/-- The carry enters at bit 0, which the shift left empty, so the or is a sum (R155). -/
theorem rolOp_fst (v p : Byte) : (rolOp v p).1 = BitVec.ofNat 8 (2 * v.toNat + carryOf p) := by
  have hc := carryOf_le_one p
  have hor : 2 ^ 1 * (v.toNat % 128) + carryOf p = 2 ^ 1 * (v.toNat % 128) ||| carryOf p :=
    Nat.two_pow_add_eq_or_of_lt (by omega) _
  have hshift : (v <<< 1).toNat = 2 ^ 1 * (v.toNat % 128) := by
    rw [shiftLeft_one_eq_ofNat, BitVec.toNat_ofNat]
    omega
  have hcarry : (BitVec.ofNat 8 (carryOf p)).toNat = carryOf p := Nat.mod_eq_of_lt (by omega)
  apply BitVec.eq_of_toNat_eq
  rw [rolOp, ← carryOf_eq_carryIn, BitVec.toNat_or, hshift, hcarry, ← hor, BitVec.toNat_ofNat]
  omega

/-- The carry enters at bit 7, which the shift left empty, so the or is a sum (R156). -/
theorem rorOp_fst (v p : Byte) : (rorOp v p).1 = BitVec.ofNat 8 (v.toNat / 2 + 128 * carryOf p) := by
  have hc := carryOf_le_one p
  have hor : 2 ^ 7 * carryOf p + v.toNat / 2 = 2 ^ 7 * carryOf p ||| v.toNat / 2 :=
    Nat.two_pow_add_eq_or_of_lt (by omega) _
  have hshift : (v >>> 1).toNat = v.toNat / 2 := by
    rw [shiftRight_one_eq_ofNat, BitVec.toNat_ofNat]
    omega
  have hcarry : (BitVec.ofNat 8 (carryOf p) <<< 7).toNat = 2 ^ 7 * carryOf p := by
    rw [BitVec.toNat_shiftLeft, BitVec.toNat_ofNat, Nat.shiftLeft_eq]
    omega
  apply BitVec.eq_of_toNat_eq
  rw [rorOp, ← carryOf_eq_carryIn, BitVec.toNat_or, hshift, hcarry, Nat.or_comm, ← hor, BitVec.toNat_ofNat]
  omega

theorem add_one_eq_ofNat (v : Byte) : v + 1 = BitVec.ofNat 8 (v.toNat + 1) := by simp [BitVec.ofNat_add]

theorem sub_one_eq_ofInt (v : Byte) : v - 1 = BitVec.ofInt 8 ((v.toNat : Int) - 1) := by
  simp [sub_eq_add_neg, BitVec.ofInt_add]

/-! ## The operations compute what the statements name -/

/-- The model's operation `f` gives the result that `g` names, and a status byte in which the bits that `g` names are
written and no other. -/
structure Computes (f : Byte → Byte → Byte × Byte) (g : Byte → Byte → Byte × List (Nat × Bool)) : Prop where
  result : ∀ v p, (f v p).1 = (g v p).1
  bits : ∀ v p, BitsBecome p (f v p).2 (g v p).2

/-- The bits a shift or a rotate writes: C, then SetZN of the result. -/
theorem bitsBecome_carry_setZN (c : Bool) (r p : Byte) : BitsBecome p (setZN r (putFlag .c c p)) ((0, c) :: zn r) :=
  bitsBecome_setZN (bitsBecome_putFlag (bitsBecome_nil p) .c c (by simp)) r (by simp [Flag.bit]) (by simp [Flag.bit])

theorem computes_aslOp : Computes aslOp aslBits where
  result v _ := shiftLeft_one_eq_ofNat v
  bits v p := by
    rw [aslBits, ← shiftLeft_one_eq_ofNat]
    exact bitsBecome_carry_setZN (v.getLsbD 7) (v <<< 1) p

theorem computes_lsrOp : Computes lsrOp lsrBits where
  result v _ := shiftRight_one_eq_ofNat v
  bits v p := by
    rw [lsrBits, ← shiftRight_one_eq_ofNat]
    exact bitsBecome_carry_setZN (v.getLsbD 0) (v >>> 1) p

theorem computes_rolOp : Computes rolOp rolBits where
  result := rolOp_fst
  bits v p := by
    rw [rolBits, ← rolOp_fst]
    exact bitsBecome_carry_setZN (v.getLsbD 7) (rolOp v p).1 p

theorem computes_rorOp : Computes rorOp rorBits where
  result := rorOp_fst
  bits v p := by
    rw [rorBits, ← rorOp_fst]
    exact bitsBecome_carry_setZN (v.getLsbD 0) (rorOp v p).1 p

theorem computes_incOp : Computes incOp incBits where
  result v _ := add_one_eq_ofNat v
  bits v p := by
    rw [incBits, ← add_one_eq_ofNat]
    exact bitsBecome_setZN_self (v + 1) p

theorem computes_decOp : Computes decOp decBits where
  result v _ := sub_one_eq_ofInt v
  bits v p := by
    rw [decBits, ← sub_one_eq_ofInt]
    exact bitsBecome_setZN_self (v - 1) p

/-! ## The modifying forms -/

/-- A read-modify-write changes P and memory alone: what the read left, with the result stored (R119). -/
theorem modifyAt_eq (f : Byte → Byte → Byte × Byte) (ea : Word) (s : State) :
    modifyAt f ea s = { s with
      mem := (memRead ea s).2.mem.write ea.toNat (f (rawRead ea s) s.p).1
      p := (f (rawRead ea s) s.p).2 } := by
  simp [modifyAt, memWrite_eq]

section Modifying

variable {f : Byte → Byte → Byte × Byte} {g : Byte → Byte → Byte × List (Nat × Bool)} {op : Byte}
  (hf : Computes f g)
include hf

/-- The write comes after the observer of the read, so at `ea` the result stands, whatever the observer did there. -/
theorem modifiesAt_of_exec {i : Instr} {s : State} {ea : Word} {extra : Nat}
    (h : exec i s = .next (modifyAt f ea { s with cycles := s.cycles + extra })) : ModifiesAt i s ea extra g := by
  refine ⟨_, _, hf.bits (rawRead ea s) s.p, fun b => ?_, h.trans (by rw [modifyAt_eq]; rfl)⟩
  rw [storedAt_write (memRead ea { s with cycles := s.cycles + extra }).2, rawRead_memRead, hf.result]
  rfl

theorem zpModifies_of_exec {mk : Byte → Instr} (hrow : ∀ z, encode (mk z) = [op, z])
    (h : ∀ z s, exec (mk z) s = .next (modifyZp f z s)) : ZpModifies op mk g := fun s z =>
  ⟨rowIs_of_encode (hrow z), modifiesAt_of_exec hf (by rw [zeroPage_eq_zpAddr]; exact h z s)⟩

theorem absModifies_of_exec {mk : Word → Instr} (hrow : ∀ a, encode (mk a) = [op, lo8 a, hi8 a])
    (h : ∀ a s, exec (mk a) s = .next (modifyAbs f a s)) : AbsModifies op mk g := fun s l r =>
  ⟨rowIs_of_encode (by simp [hrow]), modifiesAt_of_exec hf (h _ s)⟩

theorem absXModifies_of_exec {mk : Word → Instr} (hrow : ∀ a, encode (mk a) = [op, lo8 a, hi8 a])
    (h : ∀ a s, exec (mk a) s = .next (modifyAbsX op f a s)) : AbsXModifies op mk g := fun s l r =>
  ⟨rowIs_of_encode (by simp [hrow]),
    modifiesAt_of_exec hf (by rw [h, modifyAbsX, absXPenalty_eq, indexedX_eq_absXAddr])⟩

/-- An operation on one register: `get` reads it, `put` gives it the result together with the new status byte. -/
theorem impliedSets_of_exec (get : State → Byte) (put : State → Byte → Byte → State) {i : Instr}
    (hrow : encode i = [op]) (h : ∀ s, exec i s = .next (put s (f (get s) s.p).1 (f (get s) s.p).2)) :
    ImpliedSets op i (fun s => (g (get s) s.p).2) (fun s p' => put s (g (get s) s.p).1 p') := fun s =>
  ⟨rowIs_of_encode hrow, _, hf.bits (get s) s.p, by rw [h, hf.result]⟩

theorem accModifies_of_exec {i : Instr} (hrow : encode i = [op])
    (h : ∀ s, exec i s = .next (modifyA f s)) : AccModifies op i g :=
  impliedSets_of_exec hf (·.a) (fun s r p' => { s with a := r, p := p' }) hrow h

theorem xSteps_of_exec {i : Instr} (hrow : encode i = [op])
    (h : ∀ s, exec i s = .next { s with x := (f s.x s.p).1, p := (f s.x s.p).2 }) :
    ImpliedSets op i (fun s => (g s.x s.p).2) (fun s p' => { s with x := (g s.x s.p).1, p := p' }) :=
  impliedSets_of_exec hf (·.x) (fun s r p' => { s with x := r, p := p' }) hrow h

theorem ySteps_of_exec {i : Instr} (hrow : encode i = [op])
    (h : ∀ s, exec i s = .next { s with y := (f s.y s.p).1, p := (f s.y s.p).2 }) :
    ImpliedSets op i (fun s => (g s.y s.p).2) (fun s p' => { s with y := (g s.y s.p).1, p := p' }) :=
  impliedSets_of_exec hf (·.y) (fun s r p' => { s with y := r, p := p' }) hrow h

end Modifying

end Sys2Proof.Machine
end

section
/-! PROOFS. The statements about logic, shifts, rotates and increments (spec/43_logic_shift_incdec.md). -/

namespace Sys2Proof.Proofs

open Sys2Proof Sys2Proof.Machine Sys2Proof.Statements

/-- Settles O44: each operation sets A to the combination and SetZN of it, and each mode's rule takes that to its
instruction. -/
theorem logicCombinesIntoTheAccumulator : Obligations.LogicCombinesIntoTheAccumulator :=
  ⟨immReads_of_exec combinesA_andA (fun _ => rfl) exec_andImm,
    zpReads_of_exec combinesA_andA (fun _ => rfl) exec_andZp,
    absReads_of_exec combinesA_andA (fun _ => rfl) exec_andAbs,
    absXReads_of_exec combinesA_andA (fun _ => rfl) exec_andAbsX,
    immReads_of_exec combinesA_orA (fun _ => rfl) exec_oraImm, zpReads_of_exec combinesA_orA (fun _ => rfl) exec_oraZp,
    absReads_of_exec combinesA_orA (fun _ => rfl) exec_oraAbs,
    absXReads_of_exec combinesA_orA (fun _ => rfl) exec_oraAbsX,
    immReads_of_exec combinesA_xorA (fun _ => rfl) exec_eorImm,
    zpReads_of_exec combinesA_xorA (fun _ => rfl) exec_eorZp,
    absReads_of_exec combinesA_xorA (fun _ => rfl) exec_eorAbs,
    absXReads_of_exec combinesA_xorA (fun _ => rfl) exec_eorAbsX⟩

/-- Settles O45: a shift by one doubles modulo 256 or halves, and C takes the bit shifted out. -/
theorem shiftsMoveTheBitIntoCarry : Obligations.ShiftsMoveTheBitIntoCarry :=
  ⟨accModifies_of_exec computes_aslOp rfl exec_aslAcc, zpModifies_of_exec computes_aslOp (fun _ => rfl) exec_aslZp,
    absModifies_of_exec computes_aslOp (fun _ => rfl) exec_aslAbs,
    absXModifies_of_exec computes_aslOp (fun _ => rfl) exec_aslAbsX,
    accModifies_of_exec computes_lsrOp rfl exec_lsrAcc, zpModifies_of_exec computes_lsrOp (fun _ => rfl) exec_lsrZp,
    absModifies_of_exec computes_lsrOp (fun _ => rfl) exec_lsrAbs,
    absXModifies_of_exec computes_lsrOp (fun _ => rfl) exec_lsrAbsX⟩

/-- Settles O46: the old carry enters at the bit the shift left empty, so the model's or is the statement's sum. -/
theorem rotatesGoThroughCarry : Obligations.RotatesGoThroughCarry :=
  ⟨accModifies_of_exec computes_rolOp rfl exec_rolAcc, zpModifies_of_exec computes_rolOp (fun _ => rfl) exec_rolZp,
    absModifies_of_exec computes_rolOp (fun _ => rfl) exec_rolAbs,
    absXModifies_of_exec computes_rolOp (fun _ => rfl) exec_rolAbsX,
    accModifies_of_exec computes_rorOp rfl exec_rorAcc, zpModifies_of_exec computes_rorOp (fun _ => rfl) exec_rorZp,
    absModifies_of_exec computes_rorOp (fun _ => rfl) exec_rorAbs,
    absXModifies_of_exec computes_rorOp (fun _ => rfl) exec_rorAbsX⟩

/-- Settles O47: INC and DEC write Z and N alone, through the same rules as the shifts. -/
theorem incAndDecModifyMemory : Obligations.IncAndDecModifyMemory :=
  ⟨zpModifies_of_exec computes_incOp (fun _ => rfl) exec_incZp,
    absModifies_of_exec computes_incOp (fun _ => rfl) exec_incAbs,
    absXModifies_of_exec computes_incOp (fun _ => rfl) exec_incAbsX,
    zpModifies_of_exec computes_decOp (fun _ => rfl) exec_decZp,
    absModifies_of_exec computes_decOp (fun _ => rfl) exec_decAbs,
    absXModifies_of_exec computes_decOp (fun _ => rfl) exec_decAbsX⟩

/-- Settles O48: the same operations as INC and DEC, on a register in place of a byte of memory. -/
theorem indexRegistersStepByOne : Obligations.IndexRegistersStepByOne :=
  ⟨xSteps_of_exec computes_incOp rfl exec_inx, ySteps_of_exec computes_incOp rfl exec_iny,
    xSteps_of_exec computes_decOp rfl exec_dex, ySteps_of_exec computes_decOp rfl exec_dey⟩

end Sys2Proof.Proofs
end

section
/-! PROOFS. The rules of the transfers and the stack instructions (spec/44_transfer_stack.md): a register copied with
its Z and N, and the bits that PHP and PLP write in their copies of P. -/

namespace Sys2Proof.Machine

open Sys2Proof.Statements

/-- An implied form whose new status byte is SetZN of the byte it copies. -/
theorem impliedSets_zn_of_exec {op : Byte} {i : Instr} (src : State → Byte) (upd : State → Byte → State)
    (hrow : encode i = [op]) (h : ∀ s, exec i s = .next (upd s (setZN (src s) s.p))) :
    ImpliedSets op i (fun s => zn (src s)) upd := fun s =>
  ⟨rowIs_of_encode hrow, _, bitsBecome_setZN_self (src s) s.p, h s⟩

/-- A byte given bit by bit, with two bits written. -/
theorem bitsBecome_of_two_bits {p q : Byte} {j k : Nat} {b c : Bool} (hjk : k ≠ j)
    (h : ∀ n, q.getLsbD n = if n = j then b else if n = k then c else p.getLsbD n) :
    BitsBecome p q [(j, b), (k, c)] := by
  constructor
  · intro w hw
    obtain rfl | rfl : w = (j, b) ∨ w = (k, c) := by simpa using hw
    · rw [h, if_pos rfl]
    · rw [h, if_neg hjk, if_pos rfl]
  · intro n hn
    obtain ⟨hj, hk⟩ : n ≠ j ∧ n ≠ k := by simpa using hn
    rw [h, if_neg hj, if_neg hk]

theorem bitsBecome_pushedStatus (p : Byte) : BitsBecome p (pushedStatus p) [(4, true), (5, true)] :=
  bitsBecome_of_two_bits (by decide) (pushedStatus_bit p)

theorem bitsBecome_pulledStatus (v : Byte) : BitsBecome v (pulledStatus v) [(4, false), (5, true)] :=
  bitsBecome_of_two_bits (by decide) (pulledStatus_bit v)

/-- Pulling what was pushed gives P back where its bits 4 and 5 are as R27 and R28 hold them: PLP forces exactly these
two bits, and PHP changes no other. -/
theorem pulledStatus_pushedStatus {p : Byte} (h4 : p.getLsbD 4 = false) (h5 : p.getLsbD 5 = true) :
    pulledStatus (pushedStatus p) = p := by
  apply BitVec.eq_of_getLsbD_eq
  intro k _
  rw [pulledStatus_bit, pushedStatus_bit]
  split
  next hk => rw [hk, h4]
  next =>
    split
    next hk => rw [hk, h5]
    next => rfl

end Sys2Proof.Machine
end

section
/-! PROOFS. The statements about the transfers and the stack instructions (spec/44_transfer_stack.md). -/

namespace Sys2Proof.Proofs

open Sys2Proof Sys2Proof.Machine Sys2Proof.Statements

/-- Settles O53: the pop gives back the byte pushed and SP (R114, R115), and PLP undoes what PHP does to the copy
of P. -/
theorem pushThenPullRestores : Obligations.PushThenPullRestores := by
  intro s
  constructor
  · obtain ⟨-, -, -, hbyte, hsp⟩ := pushAndPopUseTheStackPage s s.a
    exact ⟨_, _, exec_pha s, exec_pla _, hbyte, hsp⟩
  · intro h4 h5
    obtain ⟨-, -, -, hbyte, hsp⟩ := pushAndPopUseTheStackPage s (pushedStatus s.p)
    exact ⟨_, _, exec_php s, exec_plp _, (congrArg pulledStatus hbyte).trans (pulledStatus_pushedStatus h4 h5), hsp⟩

/-- Settles O49: each transfer but TXS is SetZN of the byte it copies, and TXS writes SP alone. -/
theorem transfersCopyRegisters : Obligations.TransfersCopyRegisters :=
  ⟨impliedSets_zn_of_exec (·.a) (fun s p' => { s with x := s.a, p := p' }) rfl exec_tax,
    impliedSets_zn_of_exec (·.x) (fun s p' => { s with a := s.x, p := p' }) rfl exec_txa,
    impliedSets_zn_of_exec (·.a) (fun s p' => { s with y := s.a, p := p' }) rfl exec_tay,
    impliedSets_zn_of_exec (·.y) (fun s p' => { s with a := s.y, p := p' }) rfl exec_tya,
    impliedSets_zn_of_exec (·.sp) (fun s p' => { s with x := s.sp, p := p' }) rfl exec_tsx,
    fun s => ⟨rowIs_of_encode rfl, exec_txs s⟩⟩

/-- Settles O51: PHA is the push of A, and PLA is a load of the byte popped. -/
theorem phaAndPlaMoveTheAccumulator : Obligations.PhaAndPlaMoveTheAccumulator := by
  intro s
  obtain ⟨⟨m, hstored, hpush⟩, hbyte, hread, -, -⟩ := pushAndPopUseTheStackPage s s.a
  have hload : LoadsA (rawRead (stackAt (s.sp + 1)) s) (pop s).2 (loadA (pop s)) := hbyte ▸ loadsA_loadA (pop s)
  exact ⟨rowIs_of_encode rfl, ⟨m, hstored, by rw [exec_pha, hpush]⟩,
    rowIs_of_encode rfl, _, _, hread, hload, exec_pla s⟩

/-- Settles O52: PHP is the push of P with bits 4 and 5 set, and PLP takes the byte popped with these two bits
forced. -/
theorem phpAndPlpMoveTheStatus : Obligations.PhpAndPlpMoveTheStatus := by
  intro s
  obtain ⟨⟨m, hstored, hpush⟩, hbyte, hread, -, -⟩ := pushAndPopUseTheStackPage s (pushedStatus s.p)
  exact ⟨rowIs_of_encode rfl, ⟨m, _, hstored, bitsBecome_pushedStatus s.p, by rw [exec_php, hpush]⟩,
    rowIs_of_encode rfl, _, _, hread, hbyte ▸ bitsBecome_pulledStatus (pop s).1, exec_plp s⟩

end Sys2Proof.Proofs
end

section
/-! PROOFS. The rules of branches and subroutines (spec/45_control_flow.md): the target and the cost of a branch taken,
one rule for the branches on each value of a flag, and what two pushes and two pops in a row leave. -/

namespace Sys2Proof.Machine

open Sys2Proof.Statements

/-! ## Branches -/

/-- The signed displacement of the statements is the sign-extended operand of R109. -/
theorem ofInt_displacement_eq_branchTarget (d : Byte) (pcNext : Word) :
    BitVec.ofInt 16 (pcNext.toNat + d.toInt) = branchTarget d pcNext := by
  rw [BitVec.ofInt_add, BitVec.ofInt_natCast, BitVec.ofNat_toNat, BitVec.setWidth_eq]
  rfl

/-- R117: the second extra cycle of a branch taken is paid exactly if the target lies on another page. -/
theorem one_add_crossesPage_toNat (w₁ w₂ : Word) :
    1 + (crossesPage w₁ w₂).toNat = if w₁.toNat / 256 = w₂.toNat / 256 then 1 else 2 := by
  by_cases hpage : w₁.toNat / 256 = w₂.toNat / 256
  · have hsame : crossesPage w₁ w₂ = false := Bool.eq_false_iff.mpr fun hc => crossesPage_iff.mp hc hpage
    rw [if_pos hpage, hsame]
    rfl
  · rw [if_neg hpage, crossesPage_iff.mpr hpage]
    rfl

theorem branch_false (d : Byte) (s : State) : branch false d s = s := rfl

/-- A branch taken, in the statements' words (R182). -/
theorem branch_true (d : Byte) (s : State) :
    branch true d s = { s with
      pc := BitVec.ofInt 16 (s.pc.toNat + d.toInt)
      cycles := s.cycles +
        if (BitVec.ofInt 16 (s.pc.toNat + d.toInt)).toNat / 256 = s.pc.toNat / 256 then 1 else 2 } := by
  rw [ofInt_displacement_eq_branchTarget, ← one_add_crossesPage_toNat, ← Nat.add_assoc]
  rfl

section Branching

variable {op : Byte} {mk : Byte → Instr} (hrow : ∀ d, encode (mk d) = [op, d])
include hrow

theorem branchesOn_of_exec {k : Nat} {want : Bool} {cond : State → Bool}
    (hcond : ∀ s, cond s = true ↔ s.p.getLsbD k = want)
    (h : ∀ d s, exec (mk d) s = .next (branch (cond s) d s)) : BranchesOn op mk k want := fun s d => by
  refine ⟨rowIs_of_encode (hrow d), fun hne => ?_, fun heq => ?_⟩
  · have hnot : cond s = false := Bool.eq_false_iff.mpr fun ht => hne ((hcond s).mp ht)
    rw [h, hnot, branch_false]
  · rw [h, (hcond s).mpr heq, branch_true]

theorem branchesOn_set_of_exec (f : Flag)
    (h : ∀ d s, exec (mk d) s = .next (branch (getFlag f s.p) d s)) : BranchesOn op mk f.bit true :=
  branchesOn_of_exec hrow (fun _ => Iff.rfl) h

theorem branchesOn_clear_of_exec (f : Flag)
    (h : ∀ d s, exec (mk d) s = .next (branch (!getFlag f s.p) d s)) : BranchesOn op mk f.bit false :=
  branchesOn_of_exec hrow (fun s => by rw [Bool.not_eq_true', getFlag]) h

end Branching

/-! ## Jumps and subroutines -/

theorem rowIs_word_of_encode {op : Byte} {mk : Word → Instr} (hrow : ∀ a, encode (mk a) = [op, lo8 a, hi8 a])
    (l h : Byte) : RowIs (mk (littleEndian l h)) [op, l, h] := rowIs_of_encode (by simp [hrow])

theorem littleEndian_lo8_hi8 (w : Word) : littleEndian (lo8 w) (hi8 w) = w := by
  rw [littleEndian_eq_wordOf, wordOf_lo8_hi8]

/-- Distinct stack pointers name distinct addresses (R24). -/
theorem stackAt_inj {p q : Byte} : stackAt p = stackAt q ↔ p = q := by
  refine ⟨fun h => ?_, congrArg stackAt⟩
  have hnum := congrArg BitVec.toNat h
  simp only [stackAt, BitVec.toNat_ofNat] at hnum
  apply BitVec.eq_of_toNat_eq
  omega

theorem stackAt_sub_one_ne (p : Byte) : stackAt (p - 1) ≠ stackAt p := fun h => by
  have hp := stackAt_inj.mp h
  bv_omega

theorem push_push_sp (l h : Byte) (s : State) : (push l (push h s)).sp = s.sp - 2 := by
  rw [push_sp, push_sp]
  bv_omega

/-- Two pushes change memory and SP alone. -/
theorem push_push_eq (l h : Byte) (s : State) :
    push l (push h s) = { s with mem := (push l (push h s)).mem, sp := s.sp - 2 } := by
  rw [← push_push_sp l h s, push_eq l, push_eq h]

/-- The byte pushed first stands at the higher address; the second push does not reach it (R114). -/
theorem rawRead_push_push (l h : Byte) (s : State) (b : Word) :
    rawRead b (push l (push h s)) =
      if b = stackAt s.sp then h else if b = stackAt (s.sp - 1) then l else rawRead b s := by
  rw [rawRead_push, push_sp, rawRead_push, ← stackAt_eq_stackAddr, ← stackAt_eq_stackAddr]
  by_cases hb : b = stackAt s.sp
  · rw [if_neg (hb ▸ (stackAt_sub_one_ne s.sp).symm), if_pos hb, if_pos hb]
  · rw [if_neg hb, if_neg hb]

theorem afterRead_pop (s : State) : AfterRead { s with sp := s.sp + 1 } (stackAt (s.sp + 1)) (pop s).2 := by
  rw [stackAt_eq_stackAddr]
  exact afterRead_memRead _ _

/-- A pop where no observer is registered changes SP alone (R115). -/
theorem pop_of_no_observer {s : State} (h : observerAt (stackAt (s.sp + 1)) s.registry = none) :
    pop s = (rawRead (stackAt (s.sp + 1)) s, { s with sp := s.sp + 1 }) := by
  rw [stackAt_eq_stackAddr] at h ⊢
  exact Prod.ext (pop_fst s) (memRead_of_no_observer h)

theorem sp_add_one_add_one (p : Byte) : p + 1 + 1 = p + 2 := BitVec.add_assoc p 1 1

/-- RTS where the stack page has no observer: both bytes are those that stood there before it, for an observer could
rewrite the second one on the first pop (R193). -/
theorem exec_rts_of_no_observer {s : State} (h : ∀ q : Byte, observerAt (stackAt q) s.registry = none) :
    exec .rts s = .next { s with
      sp := s.sp + 2
      pc := littleEndian (rawRead (stackAt (s.sp + 1)) s) (rawRead (stackAt (s.sp + 2)) s) + 1 } := by
  have hfirst := pop_of_no_observer (h (s.sp + 1))
  have hsecond := pop_of_no_observer (s := { s with sp := s.sp + 1 }) (h (s.sp + 1 + 1))
  rw [exec_rts, hfirst, hsecond, littleEndian_eq_wordOf, ← sp_add_one_add_one]
  rfl

end Sys2Proof.Machine
end

section
/-! PROOFS. The statements about branches, jumps and subroutines (spec/45_control_flow.md). -/

namespace Sys2Proof.Proofs

open Sys2Proof Sys2Proof.Machine Sys2Proof.Statements

/-- Settles O54: each branch follows one flag, taken where it is set or where it is clear. -/
theorem branchesFollowTheirFlag : Obligations.BranchesFollowTheirFlag :=
  ⟨branchesOn_clear_of_exec (fun _ => rfl) .n exec_bpl, branchesOn_set_of_exec (fun _ => rfl) .n exec_bmi,
    branchesOn_clear_of_exec (fun _ => rfl) .v exec_bvc, branchesOn_set_of_exec (fun _ => rfl) .v exec_bvs,
    branchesOn_clear_of_exec (fun _ => rfl) .c exec_bcc, branchesOn_set_of_exec (fun _ => rfl) .c exec_bcs,
    branchesOn_clear_of_exec (fun _ => rfl) .z exec_bne, branchesOn_set_of_exec (fun _ => rfl) .z exec_beq⟩

/-- Settles O55: the encoder writes the operand low byte first, so the row's bytes give back the target. -/
theorem jmpSetsPc : Obligations.JmpSetsPc := fun s l h =>
  ⟨rowIs_word_of_encode (fun _ => rfl) l h, exec_jmp (littleEndian l h) s⟩

/-- Settles O56: the two pushes are of the halves of PC - 1, high byte first. -/
theorem jsrPushesTheReturnAddressLessOne : Obligations.JsrPushesTheReturnAddressLessOne := by
  intro s l h rl rh hret
  refine ⟨rowIs_word_of_encode (fun _ => rfl) l h, _, rawRead_push_push rl rh s, ?_⟩
  rw [exec_jsr, hret, lo8_littleEndian, hi8_littleEndian, push_push_eq]

/-- Settles O57: the second pop starts in the state the first one left, where SP is one higher. -/
theorem rtsReturnsToThePoppedAddressPlusOne : Obligations.RtsReturnsToThePoppedAddressPlusOne := by
  intro s
  have hsp : (pop s).2.sp + 1 = s.sp + 2 := by rw [pop_sp, sp_add_one_add_one]
  have hsecond := afterRead_pop (pop s).2
  rw [hsp] at hsecond
  refine ⟨rowIs_of_encode rfl, _, _, afterRead_pop s, hsecond, ?_⟩
  rw [exec_rts, littleEndian_eq_wordOf, pop_fst, pop_fst, hsp, stackAt_eq_stackAddr, stackAt_eq_stackAddr]

/-- Settles O58: the pops of RTS read the two addresses JSR pushed to, so RTS finds PC - 1 and adds the one back. -/
theorem jsrThenRtsReturns : Obligations.JsrThenRtsReturns := by
  intro s target hnone
  obtain ⟨-, m, hpushed, hjsr⟩ := jsrPushesTheReturnAddressLessOne s (lo8 target) (hi8 target) _ _
    (littleEndian_lo8_hi8 (s.pc - 1)).symm
  rw [littleEndian_lo8_hi8] at hjsr
  have hlow : s.sp - 2 + 1 = s.sp - 1 := by bv_omega
  have hhigh : s.sp - 2 + 2 = s.sp := BitVec.sub_add_cancel s.sp 2
  refine ⟨_, _, hjsr, exec_rts_of_no_observer hnone, rfl, ?_, hhigh⟩
  change littleEndian (m.read (stackAt (s.sp - 2 + 1)).toNat) (m.read (stackAt (s.sp - 2 + 2)).toNat) + 1 = s.pc
  rw [hlow, hhigh, hpushed, hpushed, if_neg (stackAt_sub_one_ne s.sp), if_pos rfl, if_pos rfl,
    littleEndian_lo8_hi8, BitVec.sub_add_cancel]

end Sys2Proof.Proofs
end

section
/-! PROOFS. The flag instructions and NOP (spec/46_flags_misc.md): one rule for an implied form that writes one named
flag of P, and the statements. -/

namespace Sys2Proof.Machine

open Sys2Proof.Statements

/-- An implied form that writes the one flag `f`. -/
theorem impliedSets_flag_of_exec {op : Byte} {i : Instr} (f : Flag) (b : Bool) (hrow : encode i = [op])
    (h : ∀ s, exec i s = .next { s with p := putFlag f b s.p }) :
    ImpliedSets op i (fun _ => [(f.bit, b)]) (fun s p' => { s with p := p' }) := fun s =>
  ⟨rowIs_of_encode hrow, _, bitsBecome_putFlag (bitsBecome_nil s.p) f b (by simp), h s⟩

end Sys2Proof.Machine

namespace Sys2Proof.Proofs

open Sys2Proof Sys2Proof.Machine Sys2Proof.Statements

/-- Settles O59: each instruction writes its flag alone, and the flags stand at the bits R26 gives them. -/
theorem flagInstructionsWriteTheirFlagAlone : Obligations.FlagInstructionsWriteTheirFlagAlone :=
  ⟨impliedSets_flag_of_exec .c false rfl exec_clc, impliedSets_flag_of_exec .c true rfl exec_sec,
    impliedSets_flag_of_exec .i false rfl exec_cli, impliedSets_flag_of_exec .i true rfl exec_sei,
    impliedSets_flag_of_exec .v false rfl exec_clv, impliedSets_flag_of_exec .d false rfl exec_cld,
    impliedSets_flag_of_exec .d true rfl exec_sed⟩

/-- Settles O60: the row of NOP has no operand, and its meaning is the identity on states. -/
theorem nopChangesNothing : Obligations.NopChangesNothing := fun s =>
  ⟨rowIs_of_encode rfl, exec_nop s⟩

end Sys2Proof.Proofs
end

section
/-! PROOFS. The timing engine over any number of steps (spec/60_exceptions.md R216 to R224). The internal vblank flag and
bit 7 of the status byte follow one rule of the scanline, `vblankAfter`; what that rule gives over all frames is
proved once, for both. -/

namespace Sys2Proof.Machine

open Sys2Proof.Statements

/-! ## The three bands of scanlines -/

theorem scanline_le (c : Fin frameDots) : scanline c ≤ 261 :=
  Nat.le_of_lt_succ (Nat.div_lt_of_lt_mul c.isLt)

/-- R217: scanline 20 clears vblank in the flag and in the status byte. -/
theorem timingStep_of_scanline_eq {s : State} (h : scanline (nextCounter s.counter) = 20) :
    timingStep s = clearVblank { s with counter := nextCounter s.counter } := if_pos h

/-- R218: the scanlines above 260 set it in both. -/
theorem timingStep_of_scanline_gt {s : State} (h : 260 < scanline (nextCounter s.counter)) :
    timingStep s = setVblank { s with counter := nextCounter s.counter } := by
  have hne : scanline (nextCounter s.counter) ≠ 20 := by omega
  exact (if_neg hne).trans (if_pos h)

/-- R219: every other scanline holds both. -/
theorem timingStep_of_other_scanline {s : State} (hne : scanline (nextCounter s.counter) ≠ 20)
    (hle : scanline (nextCounter s.counter) ≤ 260) : timingStep s = { s with counter := nextCounter s.counter } :=
  (if_neg hne).trans (if_neg (Nat.not_lt.mpr hle))

/-- What the band of a scanline makes of vblank, the flag or the bit, that was `held` before (R217 to R219). -/
def vblankAfter (line : Nat) (held : Bool) : Bool :=
  if line = 20 then false else if 260 < line then true else held

theorem vblankAfter_of_eq {line : Nat} (h : line = 20) (held : Bool) : vblankAfter line held = false := if_pos h

theorem vblankAfter_of_gt {line : Nat} (h : 260 < line) (held : Bool) : vblankAfter line held = true := by
  rw [vblankAfter, if_neg (by omega), if_pos h]

theorem vblankAfter_of_other {line : Nat} (hne : line ≠ 20) (hle : line ≤ 260) (held : Bool) :
    vblankAfter line held = held := by
  rw [vblankAfter, if_neg hne, if_neg (by omega)]

/-! ## What one timing step leaves -/

/-- The mask of R217 clears bit 7 alone. -/
theorem getLsbD_and_7F (v : Byte) (k : Nat) : (v &&& 0x7F).getLsbD k = if k = 7 then false else v.getLsbD k := by
  by_cases hk : k < 8
  · interval_cases k <;> simp
  · rw [if_neg (by omega), BitVec.getLsbD_of_ge _ _ (by omega), BitVec.getLsbD_of_ge _ _ (by omega)]

/-- The mask of R218 sets bit 7 alone. -/
theorem getLsbD_or_80 (v : Byte) (k : Nat) : (v ||| 0x80).getLsbD k = if k = 7 then true else v.getLsbD k := by
  by_cases hk : k < 8
  · interval_cases k <;> simp
  · rw [if_neg (by omega), BitVec.getLsbD_of_ge _ _ (by omega), BitVec.getLsbD_of_ge _ _ (by omega)]

theorem rawRead_clearVblank (s : State) (b : Word) :
    rawRead b (clearVblank s) = if b = s.cfg.statusAddr then rawRead s.cfg.statusAddr s &&& 0x7F else rawRead b s :=
  rawRead_rawWrite _ b _ _

theorem rawRead_setVblank (s : State) (b : Word) :
    rawRead b (setVblank s) = if b = s.cfg.statusAddr then rawRead s.cfg.statusAddr s ||| 0x80 else rawRead b s :=
  rawRead_rawWrite _ b _ _

theorem timingStep_vblank (s : State) :
    (timingStep s).vblank = vblankAfter (scanline (timingStep s).counter) s.vblank := by
  rw [timingStep_counter]
  obtain ⟨hclear, h⟩ | ⟨hset, h⟩ | ⟨hne, hle, h⟩ := timingStep_cases s <;> rw [h]
  · rw [clearVblank_vblank, vblankAfter_of_eq hclear]
  · rw [setVblank_vblank, vblankAfter_of_gt hset]
  · rw [vblankAfter_of_other hne hle]

/-- The status byte after a timing step: bit 7 as the band says, bits 6:0 kept. -/
theorem timingStep_status_bit (s : State) (k : Nat) :
    (rawRead s.cfg.statusAddr (timingStep s)).getLsbD k =
      if k = 7 then vblankAfter (scanline (timingStep s).counter) ((rawRead s.cfg.statusAddr s).getLsbD 7)
      else (rawRead s.cfg.statusAddr s).getLsbD k := by
  rw [timingStep_counter]
  obtain ⟨hclear, h⟩ | ⟨hset, h⟩ | ⟨hne, hle, h⟩ := timingStep_cases s <;> rw [h]
  · rw [rawRead_clearVblank, if_pos rfl, getLsbD_and_7F, vblankAfter_of_eq hclear]
    rfl
  · rw [rawRead_setVblank, if_pos rfl, getLsbD_or_80, vblankAfter_of_gt hset]
    rfl
  · rw [vblankAfter_of_other hne hle]
    split
    · next hk =>
      rw [hk]
      rfl
    · rfl

/-- A timing step reaches no byte but the status byte. -/
theorem rawRead_timingStep_of_ne {s : State} {b : Word} (hb : b ≠ s.cfg.statusAddr) :
    rawRead b (timingStep s) = rawRead b s := by
  obtain ⟨-, h⟩ | ⟨-, h⟩ | ⟨-, -, h⟩ := timingStep_cases s <;> rw [h]
  · exact (rawRead_clearVblank _ b).trans (if_neg hb)
  · exact (rawRead_setVblank _ b).trans (if_neg hb)
  · rfl

theorem timingStep_frame (s : State) :
    timingStep s = { s with
      counter := (timingStep s).counter, vblank := (timingStep s).vblank, mem := (timingStep s).mem } := by
  obtain ⟨-, h⟩ | ⟨-, h⟩ | ⟨-, -, h⟩ := timingStep_cases s <;> rw [h] <;> rfl

/-! ## What any number of timing steps leaves -/

/-- Timing steps change the timing engine and memory alone. -/
theorem timingSteps_frame (n : Nat) (s : State) :
    timingSteps n s = { s with
      counter := (timingSteps n s).counter, vblank := (timingSteps n s).vblank, mem := (timingSteps n s).mem } := by
  induction n with
  | zero => rfl
  | succ n ih => rw [timingSteps_succ_last, timingStep_frame, ih]

theorem rawRead_timingSteps_of_ne (n : Nat) {s : State} {b : Word} (hb : b ≠ s.cfg.statusAddr) :
    rawRead b (timingSteps n s) = rawRead b s := by
  induction n with
  | zero => rfl
  | succ n ih => rw [timingSteps_succ_last, rawRead_timingStep_of_ne (by rwa [timingSteps_cfg]), ih]

/-- Timing steps keep bits 6:0 of the status byte. -/
theorem timingSteps_status_bit_of_ne (n : Nat) (s : State) {k : Nat} (hk : k ≠ 7) :
    (rawRead s.cfg.statusAddr (timingSteps n s)).getLsbD k = (rawRead s.cfg.statusAddr s).getLsbD k := by
  induction n with
  | zero => rfl
  | succ n ih =>
    have hstep := timingStep_status_bit (timingSteps n s) k
    rw [timingSteps_cfg, if_neg hk] at hstep
    rw [timingSteps_succ_last, hstep, ih]

/-! ## Vblank over all frames -/

/-- R224: what follows the bands from counter 0 on is held up to step 6819, and is then true exactly in scanlines 261
and 0 to 19, for scanline 20 has cleared it once and each frame repeats. -/
theorem vblank_timeline {f : Nat → Bool} (hf : ∀ n, f (n + 1) = vblankAfter ((n + 1) % 89342 / 341) (f n))
    (n : Nat) : f n = if n < 6820 then f 0 else decide (n % 89342 ≤ 6819 ∨ 89001 ≤ n % 89342) := by
  induction n with
  | zero => rfl
  | succ n ih =>
    rw [hf, vblankAfter]
    split
    · next hclear => rw [if_neg (by omega), decide_eq_false (by omega)]
    · next hnotClear =>
      split
      · next hset => rw [if_neg (by omega), decide_eq_true (by omega)]
      · next hhold =>
        rw [ih]
        by_cases hn : n < 6820
        · rw [if_pos hn, if_pos (by omega)]
        · rw [if_neg hn, if_neg (by omega), decide_eq_decide]
          omega

theorem timingSteps_scanline {s : State} (hs : s.counter.val = 0) (n : Nat) :
    scanline (timingSteps n s).counter = n % 89342 / 341 := by
  rw [scanline, timingSteps_counter, hs, Nat.zero_add]

theorem timingSteps_vblank {s : State} (hs : s.counter.val = 0) (n : Nat) :
    (timingSteps n s).vblank =
      if n < 6820 then s.vblank else decide (n % 89342 ≤ 6819 ∨ 89001 ≤ n % 89342) :=
  vblank_timeline (f := fun n => (timingSteps n s).vblank)
    (fun n => by rw [← timingSteps_scanline hs, timingSteps_succ_last, timingStep_vblank]) n

theorem timingSteps_status_bit7 {s : State} (hs : s.counter.val = 0) (n : Nat) :
    (rawRead s.cfg.statusAddr (timingSteps n s)).getLsbD 7 =
      if n < 6820 then (rawRead s.cfg.statusAddr s).getLsbD 7
      else decide (n % 89342 ≤ 6819 ∨ 89001 ≤ n % 89342) := by
  refine vblank_timeline (f := fun n => (rawRead s.cfg.statusAddr (timingSteps n s)).getLsbD 7) (fun n => ?_) n
  have hstep := timingStep_status_bit (timingSteps n s) 7
  rw [timingSteps_cfg, if_pos rfl] at hstep
  rw [← timingSteps_scanline hs, timingSteps_succ_last, hstep]

end Sys2Proof.Machine
end

section
/-! PROOFS. The statements about the exception, the timing engine and the run loop (spec/60_exceptions.md). -/

namespace Sys2Proof.Proofs

open Sys2Proof Sys2Proof.Machine Sys2Proof.Statements

/-- Settles O20: the flag and the bit both follow the bands from counter 0 on. -/
theorem vblankTimelineOverAllFrames : Obligations.VblankTimelineOverAllFrames := by
  intro n s hcounter hvblank
  refine ⟨_, rfl, timingSteps_frame n s, ?_, ?_, timingSteps_status_bit7 hcounter n,
    fun k hk => timingSteps_status_bit_of_ne n s hk.ne, fun b hb => rawRead_timingSteps_of_ne n hb⟩
  · rw [timingSteps_counter, hcounter, Nat.zero_add]
  · rw [timingSteps_vblank hcounter, hvblank]
    split
    · next hearly => exact iff_of_false Bool.false_ne_true (by omega)
    · next hlate =>
      rw [decide_eq_true_iff]
      omega

/-- Settles O17: only the timing steps touch the counter, and a step that halts nothing runs three for each cycle. -/
theorem stepAdvancesTheCounterThreePerCycle : Obligations.StepAdvancesTheCounterThreePerCycle := by
  intro s t h hn
  obtain ⟨u, hu, rfl⟩ := step_cases h
  obtain ⟨hcounter, -, -, -⟩ := cpuStep_frame hu
  rw [runTiming_halted] at hn
  rw [runTiming_cycles, runTiming_of_running hn, timingSteps_counter, hcounter]

/-- Settles O19: each band's action is one raw write of the masked status byte, or nothing. -/
theorem timingStepActsOnTheScanlineBand : Obligations.TimingStepActsOnTheScanlineBand := by
  intro s c hc
  obtain rfl : c = nextCounter s.counter := Fin.ext (hc.trans (nextCounter_val s.counter).symm)
  exact ⟨scanline_le _, fun h => ⟨_, storedAt_write s _ _, timingStep_of_scanline_eq h⟩,
    fun h => ⟨_, storedAt_write s _ _, timingStep_of_scanline_gt h⟩, timingStep_of_other_scanline⟩

/-- Settles O13: the opcode's fetch is one public read and PC + 1, the halt record is made of the state after it, and
no timing step follows a halt. -/
theorem unsupportedOpcodeHalts : Obligations.UnsupportedOpcodeHalts := by
  intro s hn hop
  refine ⟨_, afterRead_memRead s s.pc, ?_⟩
  rw [step_of_cpuStep (cpuStep_of_unsupported hn (fetchInstr_of_no_handler hop)), runTiming_of_halted rfl]
  simp [takeUnsupported, snapshot, fetch8]

/-- Settles O16: every arm of exec answers a next state, and no instruction writes the halt record. -/
theorem noInstructionStopsOnceDispatched : Obligations.NoInstructionStopsOnceDispatched := by
  intro i s
  obtain ⟨t, ht⟩ := exec_answers i s
  obtain ⟨-, -, hhalted, -, -⟩ := exec_frame ht
  exact ⟨t, ht, hhalted⟩

end Sys2Proof.Proofs
end

section
/-! PROOFS. The launch (spec/70_reset_and_hazards.md R242 to R249): what an image's header counts, which check of the
launch answers it, and what the copy of the program banks leaves at each address. -/

namespace Sys2Proof.Machine

/-! ## The header -/

theorem imageByte_eq_getElem? (img : Image) (k : Nat) : imageByte img k = img[k]? := List.head?_drop

theorem bankCount_of_getElem? {img : Image} {k : Nat} {n : Byte} (h : img[k]? = some n) :
    bankCount img k = n.toNat := by
  rw [bankCount, imageByte_eq_getElem?, h]

theorem bankCount_of_length_le {img : Image} {k : Nat} (h : img.length ≤ k) : bankCount img k = 0 := by
  rw [bankCount, imageByte_eq_getElem?, List.getElem?_eq_none h]

/-- A header that counts one bank is one whose count byte is there and is 1. -/
theorem bankCount_eq_one_iff {img : Image} {k : Nat} : bankCount img k = 1 ↔ img[k]? = some 1 := by
  refine ⟨fun h => ?_, bankCount_of_getElem?⟩
  cases hk : img[k]? with
  | none => simp [bankCount_of_length_le (List.getElem?_eq_none_iff.mp hk)] at h
  | some n => exact congrArg some (BitVec.eq_of_toNat_eq ((bankCount_of_getElem? hk).symm.trans h))

theorem expectedLength_eq (img : Image) :
    expectedLength img = 16 + 16384 * bankCount img 4 + 8192 * bankCount img 5 := rfl

theorem hasMagic_iff {img : Image} : hasMagic img = true ↔ img.take 3 = [0x4E, 0x45, 0x53] := beq_iff_eq

/-! ## The checks of a launch -/

section
variable {cfg : Config} {initMem : Memory} {img : Image}

theorem launch_of_no_magic (h : hasMagic img = false) : launch cfg initMem img = .error .malformedImage :=
  if_pos (by simp [h])

theorem launch_of_short (h : img.length < 16) : launch cfg initMem img = .error .malformedImage :=
  if_pos (by simp [h])

theorem launch_of_bankCount (hmagic : hasMagic img = true) (hheader : 16 ≤ img.length)
    (h1 : bankCount img 4 ≠ 1) (h2 : bankCount img 4 ≠ 2) :
    launch cfg initMem img = .error (.bankCountRefused (bankCount img 4)) := by
  rw [launch, if_neg (by simp [hmagic, hheader]), if_pos ⟨h1, h2⟩]

/-- Log entry 15: with one or two banks the length is the header's and the banks'. -/
theorem launch_of_length_ne (hcount : bankCount img 4 = 1 ∨ bankCount img 4 = 2)
    (hlength : img.length ≠ expectedLength img) : launch cfg initMem img = .error .malformedImage := by
  rw [launch, if_neg (not_and_or.mpr (hcount.imp not_not_intro not_not_intro)), if_pos hlength, ite_self]

/-- What a launch that answers a machine has checked, and what it answers. -/
theorem launch_ok {r : Launched} (h : launch cfg initMem img = .ok r) :
    (bankCount img 4 = 1 ∨ bankCount img 4 = 2) ∧ img.length = expectedLength img ∧
      r = ⟨construct cfg (loadBanks img initMem), patternBytes img⟩ := by
  unfold launch at h
  split at h
  · cases h
  · split at h
    · cases h
    · next hcount =>
      split at h
      · cases h
      · next hlength => exact ⟨by omega, not_not.mp hlength, (Except.ok.inj h).symm⟩

end

/-! ## The copy of the program banks -/

theorem Memory.read_load_add {bs : List Byte} {k : Nat} (hk : k < bs.length) (a : Nat) (m : Memory) :
    bs[k]? = some ((Memory.load a bs m).read (a + k)) := by
  rw [Memory.read_load, dif_pos (by omega)]
  simp [hk]

theorem Memory.read_load_of_lt {a b : Nat} (h : b < a) (bs : List Byte) (m : Memory) :
    (Memory.load a bs m).read b = m.read b := by
  rw [Memory.read_load, dif_neg (by omega)]

theorem programBank_eq (img : Image) (n : Nat) : programBank img n = (img.drop (16 + 16384 * n)).take 16384 := rfl

theorem programBank_getElem? (img : Image) (n : Nat) {k : Nat} (hk : k < 16384) :
    (programBank img n)[k]? = img[16 + 16384 * n + k]? := by
  rw [programBank_eq, List.getElem?_take_of_lt hk, List.getElem?_drop]

theorem programBank_length {img : Image} {n : Nat} (h : 16 + 16384 * (n + 1) ≤ img.length) :
    (programBank img n).length = 16384 := by
  rw [programBank_eq, List.length_take, List.length_drop]
  omega

/-- The bank that goes to 0xC000: the first again if there is one only (R247), else the second (R246). -/
def upperBank (img : Image) : Nat := if bankCount img 4 = 1 then 0 else 1

theorem loadBanks_eq (img : Image) (m : Memory) : loadBanks img m =
    Memory.load 0xC000 (programBank img (upperBank img)) (Memory.load 0x8000 (programBank img 0) m) := by
  unfold loadBanks upperBank
  split <;> rfl

section
variable {img : Image} (hcount : bankCount img 4 = 1 ∨ bankCount img 4 = 2)
  (hlength : img.length = expectedLength img)
include hcount hlength

/-- An image that passes the checks holds every bank the launch copies. -/
theorem length_of_copied_bank {n : Nat} (hn : n = 0 ∨ n = upperBank img) : (programBank img n).length = 16384 := by
  refine programBank_length ?_
  rw [hlength, expectedLength_eq]
  unfold upperBank at hn
  split at hn <;> omega

theorem loadBanks_read_lower (m : Memory) {k : Nat} (hk : k < 16384) :
    img[16 + k]? = some ((loadBanks img m).read (0x8000 + k)) := by
  have hbank := length_of_copied_bank hcount hlength (.inl rfl)
  calc img[16 + k]? = (programBank img 0)[k]? := (programBank_getElem? img 0 hk).symm
    _ = some ((Memory.load 0x8000 (programBank img 0) m).read (0x8000 + k)) := Memory.read_load_add (by omega) _ m
    _ = some ((loadBanks img m).read (0x8000 + k)) := by
      rw [loadBanks_eq, Memory.read_load_of_lt (a := 0xC000) (by omega)]

theorem loadBanks_read_upper (m : Memory) {k : Nat} (hk : k < 16384) :
    img[16 + 16384 * upperBank img + k]? = some ((loadBanks img m).read (0xC000 + k)) := by
  have hbank := length_of_copied_bank hcount hlength (.inr rfl)
  rw [loadBanks_eq, ← programBank_getElem? img _ hk]
  exact Memory.read_load_add (by omega) _ _

end

theorem loadBanks_read_of_lt (img : Image) (m : Memory) {b : Nat} (hb : b < 0x8000) :
    (loadBanks img m).read b = m.read b := by
  rw [loadBanks_eq, Memory.read_load_of_lt (by omega), Memory.read_load_of_lt hb]

/-- Where the upper bank starts in the file, by the count byte of the header. -/
theorem upperBank_offset (img : Image) :
    16 + 16384 * upperBank img = if img[4]? = some 1 then 16 else 16400 := by
  simp only [upperBank, bankCount_eq_one_iff]
  split <;> rfl

end Sys2Proof.Machine
end

section
/-! PROOFS. The statements about reset and the launch (spec/70_reset_and_hazards.md). -/

namespace Sys2Proof.Proofs

open Sys2Proof Sys2Proof.Machine Sys2Proof.Statements

/-- Settles O3: a launch that answers has checked that the file holds the banks it counts, so the copies fill both
windows, and the copy to 0xC000 spares the bytes copied below it. -/
theorem launchCopiesTheProgramBanks : Obligations.LaunchCopiesTheProgramBanks := by
  intro cfg initMem img r h
  obtain ⟨hcount, hlength, rfl⟩ := launch_ok h
  refine ⟨rfl, fun k hk => loadBanks_read_lower hcount hlength initMem hk, fun k hk => ?_,
    fun b hb => loadBanks_read_of_lt img initMem hb⟩
  rw [← upperBank_offset]
  exact loadBanks_read_upper hcount hlength initMem hk

/-- Settles O1: the statement writes out the record update `cpuReset` makes. -/
theorem cpuResetWritesOnlyTheRegisters : Obligations.CpuResetWritesOnlyTheRegisters := fun _ => rfl

/-- Settles O4, one check of the launch after another. -/
theorem launchRefusesMalformedImages : Obligations.LaunchRefusesMalformedImages := by
  intro cfg initMem img
  refine ⟨fun hmagic => ?_, fun n hmagic hheader hn h1 h2 => ?_, fun n c _ hn hc hcount hlength => ?_⟩
  · exact launch_of_no_magic (Bool.eq_false_iff.mpr (mt hasMagic_iff.mp hmagic))
  · rw [← bankCount_of_getElem? hn]
    refine launch_of_bankCount (hasMagic_iff.mpr hmagic) hheader ?_ ?_ <;> rw [bankCount_of_getElem? hn]
    · exact fun h => h1 (BitVec.eq_of_toNat_eq h)
    · exact fun h => h2 (BitVec.eq_of_toNat_eq h)
  · rw [← bankCount_of_getElem? hn, ← bankCount_of_getElem? hc, ← expectedLength_eq] at hlength
    refine launch_of_length_ne ?_ hlength
    rw [bankCount_of_getElem? hn]
    exact hcount.imp (congrArg BitVec.toNat) (congrArg BitVec.toNat)

end Sys2Proof.Proofs
end
